-- ==== Sys2Proof/Word.lean ====
section
/-! DEFINITION. The element types of the block (00_scope.md R7, R8, R11; 20_memory.md R41). -/

namespace Sys2Proof

/-- A register or a command word: REGW = 32 bits, bit 0 least significant (R7, R11). -/
abbrev Word := BitVec 32

/-- An element of FMEM (R35). -/
abbrev Byte := BitVec 8

/-- A value of the sample type `NUM.S` (R8). The spec leaves the format open, so a sample is only a NAME: the code is
read by nothing in the model but the uninterpreted functions of `Numerics`, and no arithmetic of the integers is ever done
on it. DESIGN CHOICE, safe: log 1. -/
structure Sample where
  code : Int
deriving DecidableEq, Repr, Inhabited

/-- The four sample memories (R30 to R33, R41). -/
inductive SampleSpace where
  | xmem
  | ymem
  | hmem
  | rmem
deriving DecidableEq, Repr

/-- The seven address spaces (R41). -/
inductive Space where
  | reg
  | sample (sp : SampleSpace)
  | bmem
  | fmem
deriving DecidableEq, Repr

/-- The SRC field of a command word: which waveform FIND_SYNC and DEMOD work on (R58). -/
inductive Src where
  /-- SRC = 0: the input waveform, XMEM. -/
  | x
  /-- SRC = 1: the filtered waveform, YMEM. -/
  | y
deriving DecidableEq, Repr

end Sys2Proof
end

