-- ==== Sys2Proof/Syntax.lean ====
section
/-! DEFINITION. The operations of the block and the fields of a command word (30_encoding.md R56, R57, R58). -/

namespace Sys2Proof

/-- One constructor per row of opcode_table.json (R57). SRC is the only operand a command word carries (R61). -/
inductive Instr where
  /-- OP 0x1, R69 -/
  | bandpass
  /-- OP 0x2, R75 -/
  | findSync (src : Src)
  /-- OP 0x3, R79 -/
  | demod (src : Src)
  /-- OP 0x4, R85 -/
  | pack
  /-- OP 0x5, R88 -/
  | check
  /-- OP 0x6, R89 -/
  | csgen
  /-- OP 0x7, R91 -/
  | decode
deriving DecidableEq, Repr

/-- The fields of a command word as they stand in it (R56). -/
structure CmdFields where
  /-- bits 3:0 -/
  op : BitVec 4
  /-- bit 4 -/
  src : Bool
  /-- bits 31:5 -/
  reserved : BitVec 27
deriving DecidableEq, Repr

end Sys2Proof
end

