-- ==== Sys2Proof/WellFormed.lean ====
section
/-! DEFINITION. Which command-word fields are legal (30_encoding.md R56, R57, R59), one check each. -/

namespace Sys2Proof

/-- OP is one of the seven assigned codes, 0x1 to 0x7 (R57, R59). -/
def CmdFields.opAssigned (f : CmdFields) : Bool := 1 ≤ f.op.toNat && f.op.toNat ≤ 7

/-- The reserved bits 31:5 are 0 (R56, R59). -/
def CmdFields.reservedZero (f : CmdFields) : Bool := f.reserved == 0

/-- SRC is 0 for the operations that do not take it; FIND_SYNC (0x2) and DEMOD (0x3) take it (R56, R57, R59). -/
def CmdFields.srcAllowed (f : CmdFields) : Bool := !f.src || f.op == 2 || f.op == 3

/-- The fields of a legal command word. -/
def CmdFields.wf (f : CmdFields) : Bool := f.opAssigned && f.reservedZero && f.srcAllowed

/-- Every instruction term is well-formed: its type admits no other operand than the two waveforms of R58. -/
def Instr.wf : Instr → Bool
  | .bandpass => true
  | .findSync _ => true
  | .demod _ => true
  | .pack => true
  | .check => true
  | .csgen => true
  | .decode => true

end Sys2Proof
end

