-- ==== Sys2Proof/Decode.lean ====
section
/-! DEFINITION. Command words to operations and back (30_encoding.md R56 to R59, R62). -/

namespace Sys2Proof

/-- Why a command word is illegal (R59). All four raise the one fault ILLEGAL_CMD. -/
inductive Reject where
  /-- OP = 0x0: a zero word is never an operation. -/
  | opZero
  /-- OP = 0x8 to 0xF. -/
  | opReserved
  /-- a legal OP with a bit of 31:5 set. -/
  | reservedBits
  /-- SRC = 1 on an operation that does not take it. -/
  | srcNotTaken
deriving DecidableEq, Repr

/-- The fields of a command word (R56). -/
def CmdFields.ofWord (w : Word) : CmdFields :=
  { op := w.extractLsb' 0 4, src := w.getLsbD 4, reserved := w.extractLsb' 5 27 }

/-- SRC = 0 is XMEM, SRC = 1 is YMEM (R58). -/
def Src.ofBit : Bool → Src
  | false => .x
  | true => .y

/-- The SRC bit of an operand. -/
def Src.bit : Src → Bool
  | .x => false
  | .y => true

/-- The operation that legal fields select (R57). -/
def operationOf (f : CmdFields) : Except Reject Instr :=
  match f.op.toNat with
  | 0 => .error .opZero
  | 1 => .ok .bandpass
  | 2 => .ok (.findSync (Src.ofBit f.src))
  | 3 => .ok (.demod (Src.ofBit f.src))
  | 4 => .ok .pack
  | 5 => .ok .check
  | 6 => .ok .csgen
  | 7 => .ok .decode
  | _ => .error .opReserved

/-- Decoding is total over the 2^32 words (R59). -/
def decode (w : Word) : Except Reject Instr :=
  let f := CmdFields.ofWord w
  if !f.opAssigned then operationOf f
  else if !f.reservedZero then .error .reservedBits
  else if !f.srcAllowed then .error .srcNotTaken
  else operationOf f

/-- The operation code of R57. -/
def Instr.opcode : Instr → BitVec 4
  | .bandpass => 0x1
  | .findSync _ => 0x2
  | .demod _ => 0x3
  | .pack => 0x4
  | .check => 0x5
  | .csgen => 0x6
  | .decode => 0x7

/-- The SRC bit of an operation: 0 where it takes none (R56). -/
def Instr.srcBit : Instr → Bool
  | .findSync src => src.bit
  | .demod src => src.bit
  | .bandpass => false
  | .pack => false
  | .check => false
  | .csgen => false
  | .decode => false

/-- The command word of an operation: bits 31:5 zero, SRC, OP (R56, R57). -/
def encode (i : Instr) : Word := 0#27 ++ BitVec.ofBool i.srcBit ++ i.opcode

/-- What the decoder reads from an operation whose bits are `w`, numbered as opcode_table.json numbers them. A command
is one 32-bit word (R56, R62), so nothing longer decodes. -/
def decodeTableWord (nbits w : Nat) : Option Instr :=
  if 32 < nbits then none
  else
    match decode (BitVec.ofNat 32 (w % 2 ^ nbits)) with
    | .ok i => some i
    | .error _ => none

end Sys2Proof
end

