-- ==== Sys2Proof/Config.lean ====
section
/-! DEFINITION. What an implementation fixes (00_scope.md R6 to R8) and the free values, all uninterpreted. -/

namespace Sys2Proof

/-- The sample number system NUM (R8): total functions of their operands alone, nothing else assumed. -/
structure Numerics where
  zero : Sample
  add : Sample → Sample → Sample
  mul : Sample → Sample → Sample
  /-- true exactly when the value is strictly less than zero -/
  isNeg : Sample → Bool
  /-- `magGt a b`: the magnitude of `a` is strictly greater than the magnitude of `b` -/
  magGt : Sample → Sample → Bool
deriving Inhabited

/-- Everything the spec leaves to the implementation, and the values it leaves unspecified. -/
structure Config where
  num : Numerics
  /-- the capacities an implementation asks for; `nMax`, `rMax` and `bMax` below bound them as R7 demands (log 3) -/
  samplesAsked : Nat
  referenceAsked : Nat
  frameBytesAsked : Nat
  /-- FREE VALUES (R40, U1; log 4): what an element nothing has written since the last reset holds.
  The first argument counts the resets. -/
  unwrittenSample : Nat → SampleSpace → Nat → Sample
  unwrittenBit : Nat → Nat → Bool
  unwrittenByte : Nat → Nat → Byte
  /-- FREE VALUES (R43, U2, R53, U3; log 6, log 7): the answers to host reads whose value is unspecified.
  The argument is a fresh number for every such read. -/
  freeWord : Nat → Word
  freeSample : Nat → Sample
  freeBit : Nat → Bool
  freeByte : Nat → Byte
deriving Inhabited

/-- The configuration of the hardware: uninterpreted, so that whatever is proved of it holds for every
number system, every legal capacity and every free value. -/
opaque Config.hw : Config

/-- NTAPS (R6). -/
def nTaps : Nat := 128

/-- PAYLOAD_BITS (R6). -/
def payloadBits : Nat := 32

/-- N_MAX, the capacity of XMEM and YMEM: 1 ≤ N_MAX < 2^32 (R7). -/
def Config.nMax (c : Config) : Nat := min (c.samplesAsked + 1) (2 ^ 32 - 1)

/-- R_MAX, the capacity of RMEM: 1 ≤ R_MAX ≤ N_MAX (R7). -/
def Config.rMax (c : Config) : Nat := min (c.referenceAsked + 1) c.nMax

/-- F_MAX = B_MAX / 8, the capacity of FMEM: at least 4; the upper bound is that of B_MAX (R7). -/
def Config.fMax (c : Config) : Nat := min (c.frameBytesAsked + 4) (2 ^ 29 - 1)

/-- B_MAX, the capacity of BMEM: B_MAX ≥ 32, a multiple of 8, B_MAX < 2^32 − 1 (R7). -/
def Config.bMax (c : Config) : Nat := 8 * c.fMax

/-- The number of elements of a sample memory (R30 to R33, R41). -/
def Config.capacity (c : Config) : SampleSpace → Nat
  | .xmem => c.nMax
  | .ymem => c.nMax
  | .hmem => nTaps
  | .rmem => c.rMax

end Sys2Proof
end

