-- ==== Sys2Proof/Machine/State.lean ====
section
/-! DEFINITION. The whole architectural state (10_state.md R13 to R35), its reset value (R39, R40), and the model's stops. -/

namespace Sys2Proof.Machine

/-- Why the MODEL would stop with a fault. No constructor: no rule of the spec stops the machine. The block's own
faults (60_exceptions.md R95, R96) are recorded in STATUS.ERR and are next states. Safe or unsafe does not arise; log 15. -/
inductive Fault where
deriving DecidableEq, Repr

/-- Why the MODEL gives an operation no meaning. -/
inductive Refusal where
  /-- raised only by an arm of `exec` whose operation has no meaning yet; safe (the model stops where the block goes on).
  Every operation has its meaning, so nothing raises it now. -/
  | notModelled (mnemonic : String)
deriving DecidableEq, Repr

/-- The fault codes of R96; 9 to 15 are never produced (U8). -/
inductive FaultCode where
  | illegalCmd
  | badLen
  | badRef
  | badChunk
  | badNbits
  | badMode
  | badCount
  | shortFrame
deriving DecidableEq, Repr

/-- The values of STAGE (R28); 7 and above never occur (U8). -/
inductive Stage where
  | idle
  | filter
  | sync
  | demod
  | pack
  | check
  | csgen
deriving DecidableEq, Repr

/-- CFG.MODE (R27, R83). -/
inductive Mode where
  /-- 0: the differential comparator -/
  | differential
  /-- 1: the absolute-phase comparator, reserved -/
  | absolutePhase
deriving DecidableEq, Repr

/-- STATUS by its fields (R26); the reserved bits read 0, so they hold nothing. `err = none` is ERR = 0. -/
structure StatusReg where
  busy : Bool
  done : Bool
  valid : Bool
  err : Option FaultCode
deriving DecidableEq, Repr

/-- CFG by its fields (R27); bits 31:2 ignore writes and read 0, so they hold nothing. -/
structure CfgReg where
  initBit : Bool
  mode : Mode
deriving DecidableEq, Repr

/-- The registers by name, in the order of their numbers (R14). -/
inductive Reg where
  | cmd
  | status
  | cfg
  | xlen
  | ylen
  | rlen
  | chunk
  | start
  | nbits
  | sync
  | bitcnt
  | flen
  | csum
  | stage
deriving DecidableEq, Repr

/-- A memory: the elements written since the last reset, as (index, value) pairs with strictly rising indices.
An index that is not listed holds no value the spec knows (R40); what a read of it gives is in Ops. -/
abbrev Memory (α : Type) := List (Nat × α)

/-- What one host read answers: one element of the space's type (R44). -/
inductive HostValue where
  | word (v : Word)
  | sample (v : Sample)
  | bit (v : Bool)
  | byte (v : Byte)
deriving DecidableEq, Repr

/-- One access by the host (R42 to R44, R109). The index may lie outside the space's range (R43). -/
inductive HostAccess where
  | read (sp : Space) (i : Nat)
  | writeReg (n : Nat) (v : Word)
  | writeSample (sp : SampleSpace) (i : Nat) (v : Sample)
  | writeBit (i : Nat) (v : Bool)
  | writeByte (i : Nat) (v : Byte)
  /-- the reset input is asserted -/
  | reset
deriving DecidableEq, Repr

/-- The state of the block (R13), and under it the model's own four fields. -/
structure State where
  cmd : Word
  status : StatusReg
  cfg : CfgReg
  xlen : Word
  ylen : Word
  rlen : Word
  chunk : Word
  start : Word
  nbits : Word
  sync : Word
  bitcnt : Word
  flen : Word
  csum : Word
  stage : Stage
  xmem : Memory Sample
  ymem : Memory Sample
  hmem : Memory Sample
  rmem : Memory Sample
  bmem : Memory Bool
  fmem : Memory Byte
  /-- the model's own: the host accesses still to take effect, oldest first (log 8) -/
  pending : List HostAccess
  /-- the model's own: the answer to the most recent host read (log 9) -/
  lastRead : Option HostValue
  /-- the model's own: how many resets the run has seen; it selects the free values of unwritten elements (log 4, log 5) -/
  epoch : Nat
  /-- the model's own: how many fresh free values host reads have drawn (log 6, log 7) -/
  draws : Nat
deriving DecidableEq, Repr

/-- The state after reset: the register values of R39, nothing known of any memory (R40), and nothing asked by the host
yet (the block does nothing until the host writes CMD, R109; the model's own fields: DESIGN CHOICE, log 16). -/
def State.reset : State where
  cmd := 0x00000000
  status := { busy := false, done := false, valid := false, err := none }
  cfg := { initBit := true, mode := .differential }
  xlen := 0
  ylen := 0
  rlen := 0
  chunk := 0
  start := 0
  nbits := 0
  sync := 0
  bitcnt := 0
  flen := 0
  csum := 0
  stage := .idle
  xmem := []
  ymem := []
  hmem := []
  rmem := []
  bmem := []
  fmem := []
  pending := []
  lastRead := none
  epoch := 0
  draws := 0

end Sys2Proof.Machine
end

