-- ==== Sys2Proof/Machine/Ops.lean ====
section
/-! DEFINITION. Memory access (20_memory.md R41 to R49), sums (00_scope.md R9), and the shared steps of every
operation: entering a stage, completing, raising a fault, clearing it (30_encoding.md R60; 60_exceptions.md R98, R101). -/

namespace Sys2Proof.Machine

/-! ### Memories -/

/-- The canonical form: indices strictly rising. An unlisted index holds no value, so no entry can equal it. -/
abbrev Memory.wf {α : Type} (m : Memory α) : Prop := m.Pairwise (fun a b => a.1 < b.1)

/-- Every listed index is below the capacity. -/
abbrev Memory.within {α : Type} (cap : Nat) (m : Memory α) : Prop := ∀ e ∈ m, e.1 < cap

/-- The value written at an index, if one was. -/
def Memory.lookup {α : Type} (m : Memory α) (i : Nat) : Option α :=
  match m with
  | [] => none
  | (j, v) :: rest => if i = j then some v else Memory.lookup rest i

/-- `MemWrite(SPACE, i, v)`: one element is replaced (R44). -/
def Memory.store {α : Type} (m : Memory α) (i : Nat) (v : α) : Memory α :=
  match m with
  | [] => [(i, v)]
  | (j, w) :: rest =>
    if i < j then (i, v) :: (j, w) :: rest
    else if i = j then (i, v) :: rest
    else (j, w) :: Memory.store rest i v

/-- `for i = 0 .. n−1: MemWrite(SPACE, i, f i)`, ascending. -/
def Memory.storeUpTo {α : Type} (f : Nat → α) (m : Memory α) : Nat → Memory α
  | 0 => m
  | n + 1 => Memory.store (Memory.storeUpTo f m n) n (f n)

/-- The sample memory a space names. -/
def sampleMemory (s : State) : SampleSpace → Memory Sample
  | .xmem => s.xmem
  | .ymem => s.ymem
  | .hmem => s.hmem
  | .rmem => s.rmem

/-- `MemRead` of a sample memory. An element nothing has written since reset has an unspecified value (R40, U1) that
stays the same until it is written (R45): a free value of the configuration (log 4). -/
def readSample (c : Config) (s : State) (sp : SampleSpace) (i : Nat) : Sample :=
  (Memory.lookup (sampleMemory s sp) i).getD (c.unwrittenSample s.epoch sp i)

/-- `MemRead(BMEM, i)`; unwritten elements as in `readSample`. -/
def readBit (c : Config) (s : State) (i : Nat) : Bool :=
  (Memory.lookup s.bmem i).getD (c.unwrittenBit s.epoch i)

/-- `MemRead(FMEM, i)`; unwritten elements as in `readSample`. -/
def readByte (c : Config) (s : State) (i : Nat) : Byte :=
  (Memory.lookup s.fmem i).getD (c.unwrittenByte s.epoch i)

/-! ### Sums -/

/-- `Sum(k = a .. a+n−1 ; cond(k)) term(k)` (R9): from `zero`, ascending, terms whose condition is false skipped. -/
def sumFrom (num : Numerics) (a : Nat) (cond : Nat → Bool) (term : Nat → Sample) : Nat → Sample
  | 0 => num.zero
  | n + 1 =>
    if cond (a + n) then num.add (sumFrom num a cond term n) (term (a + n))
    else sumFrom num a cond term n

/-- `dot(u, v, n) = Sum(i = 0 .. n−1) mul(u(i), v(i))` (R9). -/
def dot (num : Numerics) (u v : Nat → Sample) (n : Nat) : Sample :=
  sumFrom num 0 (fun _ => true) (fun i => num.mul (u i) (v i)) n

/-! ### The shared steps of an operation -/

/-- How the stages of an operation end. -/
inductive Run where
  /-- every stage ran to its end -/
  | done (s : State)
  /-- a stage raised a fault; `s` is the state at that moment (R98, R99) -/
  | faulted (code : FaultCode) (s : State)
deriving DecidableEq, Repr

/-- The next stage runs only if this one raised no fault (R91). -/
def Run.andThen (r : Run) (next : State → Run) : Run :=
  match r with
  | .done s => next s
  | .faulted code s => .faulted code s

/-- `x[STAGE] <- n`, the first act of every stage (R28, R91). -/
def enterStage (st : Stage) (s : State) : State := { s with stage := st }

/-- TAKING A FAULT: `raise Fault(CODE)` (R98). STAGE keeps the stage that raised it, but is 0 for ILLEGAL_CMD. -/
def raiseFault (code : FaultCode) (s : State) : State :=
  { s with
    status := { s.status with busy := false, done := true, err := some code }
    stage := if code = .illegalCmd then .idle else s.stage }

/-- LEAVING THE HALTED STATE: any host write to STATUS (R26, R101). -/
def clearFault (s : State) : State :=
  { s with status := { s.status with err := none }, stage := .idle }

/-- A CMD write is accepted iff BUSY = 0 and ERR = 0 (R60). -/
def accepts (s : State) : Bool := !s.status.busy && s.status.err.isNone

/-- The first acts of an accepted CMD write: CMD, DONE and BUSY (R60). -/
def acceptCommand (w : Word) (s : State) : State :=
  { s with cmd := w, status := { s.status with done := false, busy := true } }

/-- The last acts of an operation that did not fault (R60). -/
def complete (s : State) : State :=
  { s with stage := .idle, status := { s.status with busy := false, done := true } }

/-- The end of an operation (R60, R98, R118): completed or faulted, always a next state. -/
def Run.finish : Run → Host.Outcome State Fault Refusal
  | .done s => .next (complete s)
  | .faulted code s => .next (raiseFault code s)

end Sys2Proof.Machine
end

