-- ==== Sys2Proof/Machine/Operands.lean ====
section
/-! DEFINITION. Operand assembly (30_encoding.md R58, R61): where each operand of an operation is read. -/

namespace Sys2Proof.Machine

/-- SRCMEM (R58). -/
def srcSpace : Src → SampleSpace
  | .x => .xmem
  | .y => .ymem

/-- SRCLEN (R58). -/
def srcLength (src : Src) (s : State) : Nat :=
  match src with
  | .x => s.xlen.toNat
  | .y => s.ylen.toNat

/-- Sample `i` of the selected waveform, `MemRead(SRCMEM, i)` (R58, R61). -/
def waveform (c : Config) (src : Src) (s : State) (i : Nat) : Sample := readSample c s (srcSpace src) i

/-- Sample `k` of the sync reference, `MemRead(RMEM, k)` (R33, R61). -/
def reference (c : Config) (s : State) (k : Nat) : Sample := readSample c s .rmem k

/-- Coefficient `k` of the kernel, `MemRead(HMEM, k)` (R32, R61). -/
def coefficient (c : Config) (s : State) (k : Nat) : Sample := readSample c s .hmem k

/-- A waveform length an operation cannot work on: the cause of BAD_LEN (R96). -/
def badLength (c : Config) (n : Nat) : Bool := n == 0 || decide (c.nMax < n)

/-- A reference length that FIND_SYNC cannot work on in a waveform of `n` samples: the cause of BAD_REF (R96). -/
def badReference (c : Config) (n l : Nat) : Bool := l == 0 || decide (c.rMax < l) || decide (n < l)

end Sys2Proof.Machine
end

