-- ==== Sys2Proof/Machine/Flags.lean ====
section
/-! DEFINITION. The one flag, STATUS.VALID (10_state.md R29; 44_modulo_255_checksum.md R87, R88), and the words that
STATUS, CFG and STAGE read as (R26, R27, R28, R96). -/

namespace Sys2Proof.Machine

/-- The checksum function (R87): the sum over the natural numbers, then the remainder by 255. -/
def csum255 (a b c : Byte) : Nat := (a.toNat + b.toNat + c.toNat) % 255

/-- The checksum of the three payload bytes in FMEM (R87, R89). -/
def frameChecksum (c : Config) (s : State) : Nat := csum255 (readByte c s 0) (readByte c s 1) (readByte c s 2)

/-- Whether the frame passes (R88): long enough, and the fourth byte is the checksum of the first three. -/
def framePasses (c : Config) (s : State) : Bool :=
  decide (4 ≤ s.flen.toNat) && decide (frameChecksum c s = (readByte c s 3).toNat)

/-- `STATUS.VALID <- 0` when CHECK or DECODE is accepted (R29, R60). -/
def clearValid (s : State) : State := { s with status := { s.status with valid := false } }

/-- The value of ERR for a fault code (R96). -/
def FaultCode.number : FaultCode → BitVec 4
  | .illegalCmd => 1
  | .badLen => 2
  | .badRef => 3
  | .badChunk => 4
  | .badNbits => 5
  | .badMode => 6
  | .badCount => 7
  | .shortFrame => 8

/-- The value of STATUS.ERR, 0 when no fault is latched (R26, R96). -/
def errNumber : Option FaultCode → BitVec 4
  | none => 0
  | some code => code.number

/-- STATUS as a word: 31:8 reserved, 7:4 ERR, 3 reserved, 2 VALID, 1 DONE, 0 BUSY (R26). -/
def statusWord (r : StatusReg) : Word :=
  0#24 ++ errNumber r.err ++ 0#1 ++ BitVec.ofBool r.valid ++ BitVec.ofBool r.done ++ BitVec.ofBool r.busy

/-- MODE as a bit (R27). -/
def Mode.bit : Mode → Bool
  | .differential => false
  | .absolutePhase => true

/-- MODE from a bit (R27). -/
def Mode.ofBit : Bool → Mode
  | false => .differential
  | true => .absolutePhase

/-- CFG as a word: 31:2 reserved, 1 MODE, 0 INIT_BIT (R27). -/
def cfgWord (r : CfgReg) : Word := 0#30 ++ BitVec.ofBool r.mode.bit ++ BitVec.ofBool r.initBit

/-- What a write of `v` leaves in CFG: bits 31:2 are ignored (R27, U7). -/
def cfgOfWord (v : Word) : CfgReg := { initBit := v.getLsbD 0, mode := Mode.ofBit (v.getLsbD 1) }

/-- The number STAGE reads as (R28). -/
def Stage.number : Stage → Word
  | .idle => 0
  | .filter => 1
  | .sync => 2
  | .demod => 3
  | .pack => 4
  | .check => 5
  | .csgen => 6

end Sys2Proof.Machine
end

