-- ==== Sys2Proof/Machine/Checksum.lean ====
section
/-! DEFINITION. The modulo-255 checksum unit: CHECK and CSGEN (44_modulo_255_checksum.md R87 to R90). -/

namespace Sys2Proof.Machine

/-- The output of the check stage: VALID becomes 1 if the frame passes; it was cleared at acceptance (R88). -/
def storeValid (c : Config) (s : State) : State :=
  { s with status := { s.status with valid := framePasses c s || s.status.valid } }

/-- The check stage, stage 5 (R88). -/
def checkStage (c : Config) (s0 : State) : Run :=
  let s := enterStage .check s0
  if c.fMax < s.flen.toNat then .faulted .badCount s
  else .done (storeValid c s)

/-- CHECK, for any configuration. -/
def checkOp (c : Config) (s : State) : Host.Outcome State Fault Refusal := (checkStage c (clearValid s)).finish

/-- CHECK (R88). -/
def execCheck (s : State) : Host.Outcome State Fault Refusal := checkOp Config.hw s

/-- The output of checksum generation: CSUM (R89). -/
def storeChecksum (c : Config) (s : State) : State := { s with csum := BitVec.ofNat 32 (frameChecksum c s) }

/-- Checksum generation, stage 6 (R89). -/
def csgenStage (c : Config) (s0 : State) : Run :=
  let s := enterStage .csgen s0
  if c.fMax < s.flen.toNat then .faulted .badCount s
  else if s.flen.toNat < 3 then .faulted .shortFrame s
  else .done (storeChecksum c s)

/-- CSGEN, for any configuration. -/
def csgenOp (c : Config) (s : State) : Host.Outcome State Fault Refusal := (csgenStage c s).finish

/-- CSGEN (R89). -/
def execCsgen (s : State) : Host.Outcome State Fault Refusal := csgenOp Config.hw s

end Sys2Proof.Machine
end

