-- ==== Sys2Proof/Machine/Correlator.lean ====
section
/-! DEFINITION. The chirp correlator unit: FIND_SYNC (41_chirp_correlator.md R75 to R77). -/

namespace Sys2Proof.Machine

/-- `c_j` (R75): the reference laid over the waveform with its first sample on waveform sample `j`; the waveform sample
is the first factor. -/
def correlation (c : Config) (src : Src) (s : State) (j : Nat) : Sample :=
  dot c.num (fun k => waveform c src s (j + k)) (fun k => reference c s k) s.rlen.toNat

/-- The lag of greatest magnitude among lags 0 .. n, the lowest one on a tie (R75, R76). -/
def peakLag (num : Numerics) (corr : Nat → Sample) : Nat → Nat
  | 0 => 0
  | n + 1 =>
    let best := peakLag num corr n
    if num.magGt (corr (n + 1)) (corr best) then n + 1 else best

/-- The value FIND_SYNC writes to SYNC: `best + L`, one past the end of the detected chirp (R75, R77). -/
def syncOffset (c : Config) (src : Src) (s : State) : Nat :=
  peakLag c.num (correlation c src s) (srcLength src s - s.rlen.toNat) + s.rlen.toNat

/-- The output of the sync stage: SYNC (R75). -/
def storeSync (c : Config) (src : Src) (s : State) : State :=
  { s with sync := BitVec.ofNat 32 (syncOffset c src s) }

/-- The sync stage, stage 2 (R75). -/
def syncStage (c : Config) (src : Src) (s0 : State) : Run :=
  let s := enterStage .sync s0
  if badLength c (srcLength src s) then .faulted .badLen s
  else if badReference c (srcLength src s) s.rlen.toNat then .faulted .badRef s
  else .done (storeSync c src s)

/-- FIND_SYNC, for any configuration. -/
def findSyncOp (c : Config) (src : Src) (s : State) : Host.Outcome State Fault Refusal := (syncStage c src s).finish

/-- FIND_SYNC (R75). -/
def execFindSync (src : Src) (s : State) : Host.Outcome State Fault Refusal := findSyncOp Config.hw src s

end Sys2Proof.Machine
end

