-- ==== Sys2Proof/Machine/Demodulator.lean ====
section
/-! DEFINITION. The differential phase demodulator unit: DEMOD (42_differential_phase_demodulator.md R79 to R83). -/

namespace Sys2Proof.Machine

/-- The number of bits produced (R79, R80): whole chunks from `start` to the end of the waveform, at most `nb + 1` of
them, and the first yields no bit. -/
def bitsProduced (n cs start nb : Nat) : Nat := min ((n - start) / cs) (nb + 1) - 1

/-- The inner product of chunk `m − 1` (first factor) with chunk `m` (R79). -/
def chunkProduct (c : Config) (src : Src) (s : State) (cs start m : Nat) : Sample :=
  dot c.num (fun i => waveform c src s (start + (m - 1) * cs + i)) (fun i => waveform c src s (start + m * cs + i)) cs

/-- A phase reversal at pair `m`: the product is strictly negative (R81). -/
def reversal (c : Config) (src : Src) (s : State) (cs start m : Nat) : Bool :=
  c.num.isNeg (chunkProduct c src s cs start m)

/-- The loop of R79 over the first `n` pairs: the running bit `cur` (R82) and BMEM. -/
def demodLoop (rev : Nat → Bool) (init : Bool) (m : Memory Bool) : Nat → Bool × Memory Bool
  | 0 => (init, m)
  | n + 1 =>
    let before := demodLoop rev init m n
    let cur := if rev (n + 1) then !before.1 else before.1
    (cur, Memory.store before.2 n cur)

/-- The outputs of the demodulation stage: BMEM[0 .. nout−1] and BITCNT (R79). -/
def storeBits (c : Config) (src : Src) (start nb : Nat) (s : State) : State :=
  let cs := s.chunk.toNat
  let nout := bitsProduced (srcLength src s) cs start nb
  { s with
    bmem := (demodLoop (reversal c src s cs start) s.cfg.initBit s.bmem nout).2
    bitcnt := BitVec.ofNat 32 nout }

/-- The demodulation stage, stage 3, for a start offset and a number of bits (R79). -/
def demodStage (c : Config) (src : Src) (start nb : Nat) (s0 : State) : Run :=
  let s := enterStage .demod s0
  if s.cfg.mode = .absolutePhase then .faulted .badMode s
  else if badLength c (srcLength src s) then .faulted .badLen s
  else if s.chunk.toNat < 2 then .faulted .badChunk s
  else if c.bMax < nb then .faulted .badNbits s
  else .done (storeBits c src start nb s)

/-- DEMOD, for any configuration: the start offset is START, the number of bits NBITS (R61, R79). -/
def demodOp (c : Config) (src : Src) (s : State) : Host.Outcome State Fault Refusal :=
  (demodStage c src s.start.toNat s.nbits.toNat s).finish

/-- DEMOD (R79). -/
def execDemod (src : Src) (s : State) : Host.Outcome State Fault Refusal := demodOp Config.hw src s

end Sys2Proof.Machine
end

