-- ==== Sys2Proof/Machine/Filter.lean ====
section
/-! DEFINITION. The filter unit: BANDPASS (40_bandpass_filter.md R69 to R72). -/

namespace Sys2Proof.Machine

/-- FILTER_DELAY = floor((NTAPS − 1) / 2), the offset of the "same"-mode output into the full convolution (R7, R70). -/
def filterDelay : Nat := 63

/-- `y_i` (R69): the terms whose sample index `i + 63 − k` lies outside 0 .. n−1 are skipped (R71). -/
def filterSample (c : Config) (s : State) (n i : Nat) : Sample :=
  sumFrom c.num 0 (fun k => decide (k ≤ i + filterDelay) && decide (i + filterDelay - k < n))
    (fun k => c.num.mul (coefficient c s k) (readSample c s .xmem (i + filterDelay - k))) nTaps

/-- The outputs of the filter stage: YMEM[0 .. n−1] and YLEN (R69). -/
def storeFiltered (c : Config) (s : State) : State :=
  { s with ymem := Memory.storeUpTo (filterSample c s s.xlen.toNat) s.ymem s.xlen.toNat, ylen := s.xlen }

/-- The filter stage, stage 1 (R69). -/
def filterStage (c : Config) (s0 : State) : Run :=
  let s := enterStage .filter s0
  if badLength c s.xlen.toNat then .faulted .badLen s
  else .done (storeFiltered c s)

/-- BANDPASS, for any configuration. -/
def bandpassOp (c : Config) (s : State) : Host.Outcome State Fault Refusal := (filterStage c s).finish

/-- BANDPASS (R69). -/
def execBandpass (s : State) : Host.Outcome State Fault Refusal := bandpassOp Config.hw s

end Sys2Proof.Machine
end

