-- ==== Sys2Proof/Machine/Packer.lean ====
section
/-! DEFINITION. The frame bit packer unit: PACK (43_frame_bit_packer.md R85, R86). -/

namespace Sys2Proof.Machine

/-- The packer's inner loop after `t` bits (R85): `v <- 2·v + bit`, so the earliest bit is the most significant. -/
def packBits (bit : Nat → Bool) : Nat → Nat
  | 0 => 0
  | t + 1 => 2 * packBits bit t + (bit t).toNat

/-- Byte `q` of the frame: bits `8q .. 8q+7` of the sequence (R85). -/
def packedByte (c : Config) (s : State) (q : Nat) : Byte :=
  BitVec.ofNat 8 (packBits (fun t => readBit c s (8 * q + t)) 8)

/-- The outputs of the pack stage: FMEM[0 .. nbytes−1] and FLEN; the last `n mod 8` bits influence nothing (R85, R86). -/
def storeFrame (c : Config) (s : State) : State :=
  let nbytes := s.bitcnt.toNat / 8
  { s with fmem := Memory.storeUpTo (packedByte c s) s.fmem nbytes, flen := BitVec.ofNat 32 nbytes }

/-- The pack stage, stage 4 (R85). -/
def packStage (c : Config) (s0 : State) : Run :=
  let s := enterStage .pack s0
  if c.bMax < s.bitcnt.toNat then .faulted .badCount s
  else .done (storeFrame c s)

/-- PACK, for any configuration. -/
def packOp (c : Config) (s : State) : Host.Outcome State Fault Refusal := (packStage c s).finish

/-- PACK (R85). -/
def execPack (s : State) : Host.Outcome State Fault Refusal := packOp Config.hw s

end Sys2Proof.Machine
end

