-- ==== Sys2Proof/Machine/Sequencer.lean ====
section
/-! DEFINITION. The sequencer: DECODE (45_decode_pipeline.md R91 to R94). -/

namespace Sys2Proof.Machine

/-- The five stages of R91 in their fixed order; a fault ends DECODE at its stage. Stages 2 and 3 work on YMEM, the start
offset is SYNC, the number of bits 32. -/
def decodeStages (c : Config) (s : State) : Run :=
  (filterStage c s).andThen fun s1 =>
  (syncStage c .y s1).andThen fun s2 =>
  (demodStage c .y s2.sync.toNat payloadBits s2).andThen fun s3 =>
  (packStage c s3).andThen fun s4 =>
  checkStage c s4

/-- DECODE, for any configuration. -/
def decodeOp (c : Config) (s : State) : Host.Outcome State Fault Refusal := (decodeStages c (clearValid s)).finish

/-- DECODE (R91). -/
def execDecode (s : State) : Host.Outcome State Fault Refusal := decodeOp Config.hw s

end Sys2Proof.Machine
end

