-- ==== Sys2Proof/Machine/Dispatch.lean ====
section
/-! DEFINITION. One arm per operation of 30_encoding.md R57. -/

namespace Sys2Proof.Machine

/-- The operation's own effect on the state in which its command has just been accepted (R60): BUSY is 1 and CMD holds
the word already; the step does that (log 10). -/
def exec (i : Instr) (s : State) : Host.Outcome State Fault Refusal :=
  match i with
  | .bandpass => Sys2Proof.Machine.execBandpass s
  | .findSync src => Sys2Proof.Machine.execFindSync src s
  | .demod src => Sys2Proof.Machine.execDemod src s
  | .pack => Sys2Proof.Machine.execPack s
  | .check => Sys2Proof.Machine.execCheck s
  | .csgen => Sys2Proof.Machine.execCsgen s
  | .decode => Sys2Proof.Machine.execDecode s

end Sys2Proof.Machine
end

