-- ==== Sys2Proof/Machine/HostPort.lean ====
section
/-! DEFINITION. What the host can do to the block, but for writing CMD: reads, writes of one element, the STATUS write, reset
(10_state.md R14, R26, R27; 20_memory.md R42 to R45, R49, R53; 70_reset_and_hazards.md R109). -/

namespace Sys2Proof.Machine

/-- The register numbers of R14; 14 and above name no register (R43). -/
def Reg.ofNumber (n : Nat) : Option Reg :=
  [Reg.cmd, .status, .cfg, .xlen, .ylen, .rlen, .chunk, .start, .nbits, .sync, .bitcnt, .flen, .csum, .stage][n]?

/-- What a register reads as (R14, R25 to R28). -/
def readReg (s : State) : Reg → Word
  | .cmd => s.cmd
  | .status => statusWord s.status
  | .cfg => cfgWord s.cfg
  | .xlen => s.xlen
  | .ylen => s.ylen
  | .rlen => s.rlen
  | .chunk => s.chunk
  | .start => s.start
  | .nbits => s.nbits
  | .sync => s.sync
  | .bitcnt => s.bitcnt
  | .flen => s.flen
  | .csum => s.csum
  | .stage => s.stage.number

/-- A host write to a register other than CMD: read-only registers ignore it (R14), a write to STATUS clears the fault
(R26), CFG keeps its two fields (R27), every other writable register stores the 32 bits as written (R14). -/
def writeReg (r : Reg) (v : Word) (s : State) : State :=
  match r with
  | .cmd => s
  | .status => clearFault s
  | .cfg => { s with cfg := cfgOfWord v }
  | .xlen => { s with xlen := v }
  | .ylen => s
  | .rlen => { s with rlen := v }
  | .chunk => { s with chunk := v }
  | .start => { s with start := v }
  | .nbits => { s with nbits := v }
  | .sync => s
  | .bitcnt => { s with bitcnt := v }
  | .flen => { s with flen := v }
  | .csum => s
  | .stage => s

/-- A host write to a sample memory: ignored out of range (R43) and in YMEM (R31, R49). -/
def writeSample (c : Config) (sp : SampleSpace) (i : Nat) (v : Sample) (s : State) : State :=
  if i < c.capacity sp then
    match sp with
    | .xmem => { s with xmem := Memory.store s.xmem i v }
    | .ymem => s
    | .hmem => { s with hmem := Memory.store s.hmem i v }
    | .rmem => { s with rmem := Memory.store s.rmem i v }
  else s

/-- A host write to BMEM: ignored out of range (R43). -/
def writeBit (c : Config) (i : Nat) (v : Bool) (s : State) : State :=
  if i < c.bMax then { s with bmem := Memory.store s.bmem i v } else s

/-- A host write to FMEM: ignored out of range (R43). -/
def writeByte (c : Config) (i : Nat) (v : Byte) (s : State) : State :=
  if i < c.fMax then { s with fmem := Memory.store s.fmem i v } else s

/-- The value of an element an idle block answers with: none where the index is out of range, its value then being
unspecified (R42, R43). -/
def answerIdle (c : Config) (s : State) (sp : Space) (i : Nat) : Option HostValue :=
  match sp with
  | .reg => (Reg.ofNumber i).map fun r => .word (readReg s r)
  | .sample sp => if i < c.capacity sp then some (.sample (readSample c s sp i)) else none
  | .bmem => if i < c.bMax then some (.bit (readBit c s i)) else none
  | .fmem => if i < c.fMax then some (.byte (readByte c s i)) else none

/-- A free value of a space's element type (U2, U3). -/
def freeAnswer (c : Config) (n : Nat) : Space → HostValue
  | .reg => .word (c.freeWord n)
  | .sample _ => .sample (c.freeSample n)
  | .bmem => .bit (c.freeBit n)
  | .fmem => .byte (c.freeByte n)

/-- STATUS read while BUSY: BUSY = 1, DONE = 0 and every other bit unspecified (R53). -/
def busyStatus (free : Word) : Word := free.extractLsb' 2 30 ++ 1#2

/-- What a busy block answers (R53): everything but BUSY and DONE is unspecified. -/
def answerBusy (c : Config) (n : Nat) (sp : Space) (i : Nat) : HostValue :=
  if sp = .reg ∧ i = 1 then .word (busyStatus (c.freeWord n)) else freeAnswer c n sp

/-- A host read: the answer goes out, and nothing of the block changes (R42, R45, R53). -/
def hostRead (c : Config) (sp : Space) (i : Nat) (s : State) : State :=
  if s.status.busy then { s with lastRead := some (answerBusy c s.draws sp i), draws := s.draws + 1 }
  else
    match answerIdle c s sp i with
    | some v => { s with lastRead := some v }
    | none => { s with lastRead := some (freeAnswer c s.draws sp), draws := s.draws + 1 }

/-- A host write other than to CMD, and reset. While BUSY every write is ignored (R53); reset takes effect at any time and
puts every register at its reset value; the contents of the memories are unspecified after it (R40, R109, log 5). -/
def hostAccess (c : Config) (a : HostAccess) (s : State) : State :=
  match a with
  | .read sp i => hostRead c sp i s
  | .writeReg n v =>
    if s.status.busy then s
    else
      match Reg.ofNumber n with
      | some r => writeReg r v s
      | none => s
  | .writeSample sp i v => if s.status.busy then s else writeSample c sp i v s
  | .writeBit i v => if s.status.busy then s else writeBit c i v s
  | .writeByte i v => if s.status.busy then s else writeByte c i v s
  | .reset =>
    { State.reset with
      pending := s.pending, lastRead := s.lastRead, draws := s.draws, epoch := s.epoch + 1 }

end Sys2Proof.Machine
end

