-- ==== Sys2Proof/Machine/Command.lean ====
section
/-! DEFINITION. The CMD write (30_encoding.md R59, R60) and one host access of any kind. -/

namespace Sys2Proof.Machine

/-- A host write of `w` to CMD (R60): ignored entirely unless accepted; an illegal word raises ILLEGAL_CMD; a legal one
runs its operation to completion, all in one transition. -/
def writeCommand (w : Word) (s : State) : Host.Outcome State Fault Refusal :=
  if accepts s then
    match decode w with
    | .ok i => exec i (acceptCommand w s)
    | .error _ => .next (raiseFault .illegalCmd (acceptCommand w s))
  else .next s

/-- One host access takes effect (R42, R50). -/
def perform (a : HostAccess) (s : State) : Host.Outcome State Fault Refusal :=
  match a with
  | .writeReg 0 w => writeCommand w s
  | a => .next (hostAccess Config.hw a s)

/-- The block waits when the host asks nothing (R108, R109); else the oldest access takes effect (R50). -/
def stepHost (s : State) : Host.Outcome State Fault Refusal :=
  match s.pending with
  | [] => .next s
  | a :: rest => perform a { s with pending := rest }

/-- The CMD write that starts the operation whose bits are `w`, made the next access to take effect. -/
def withCommand (s : State) (nbits w : Nat) : State :=
  { s with pending := .writeReg 0 (BitVec.ofNat 32 (w % 2 ^ nbits)) :: s.pending }

end Sys2Proof.Machine
end

