-- ==== Sys2Proof/Machine/Step.lean ====
section
/-! DEFINITION. One step of the machine: one host access, atomically with the operation it may start (00_scope.md R5). -/

namespace Sys2Proof.Machine

/-- One step. -/
def step (s : State) : Host.Outcome State Fault Refusal := stepHost s

/-- `s` with the operation whose bits are `w` as the next thing the step runs: the block fetches nothing, it runs the
word the host writes to CMD (R48, R60). A halted or busy block ignores that write as R60 says (log 8). -/
def State.withFetchWord (s : State) (nbits w : Nat) : State := withCommand s nbits w

end Sys2Proof.Machine
end

