-- ==== Sys2Proof/Safety.lean ====
section
/-! DEFINITION. What counts as a legal state of the block, in the terms claims use. -/

namespace Sys2Proof.Machine

/-- Idle (00_scope.md glossary): STATUS.BUSY = 0. -/
abbrev Idle (s : State) : Prop := s.status.busy = false

/-- Halted (R100): STATUS.ERR ≠ 0. -/
abbrev Halted (s : State) : Prop := s.status.err ≠ none

/-! ### The spec's loops, written as loops

Claims compare the model's recursive definitions with these. -/

/-- `Sum(k = 0 .. n−1 ; cond(k)) term(k)` as R9 runs it: `acc <- zero`, then ascending `k`. -/
def loopSum (num : Numerics) (n : Nat) (cond : Nat → Bool) (term : Nat → Sample) : Sample :=
  (List.range n).foldl (fun acc k => if cond k then num.add acc (term k) else acc) num.zero

/-- The peak search as R75 runs it: `best <- 0`, then `j = 1 .. lags`. -/
def loopPeak (num : Numerics) (corr : Nat → Sample) (lags : Nat) : Nat :=
  (List.range lags).foldl (fun best j => if num.magGt (corr (j + 1)) (corr best) then j + 1 else best) 0

/-- Element `n` of the full linear convolution of kernel and input (R70). -/
def fullConvolution (c : Config) (s : State) (n : Nat) : Sample :=
  loopSum c.num 128 (fun k => decide (k ≤ n) && decide (n - k < s.xlen.toNat))
    (fun k => c.num.mul (readSample c s .hmem k) (readSample c s .xmem (n - k)))

/-- `c_j` of R75 over the waveform in `sp`. -/
def lagSum (c : Config) (s : State) (sp : SampleSpace) (j : Nat) : Sample :=
  loopSum c.num s.rlen.toNat (fun _ => true)
    (fun k => c.num.mul (readSample c s sp (j + k)) (readSample c s .rmem k))

/-- `p` of R79 for pair `m` (chunks `m − 1` and `m`) over the waveform in `sp`, from `start`. -/
def pairSum (c : Config) (s : State) (sp : SampleSpace) (start m : Nat) : Sample :=
  loopSum c.num s.chunk.toNat (fun _ => true)
    (fun i => c.num.mul (readSample c s sp (start + (m - 1) * s.chunk.toNat + i))
      (readSample c s sp (start + m * s.chunk.toNat + i)))

/-- The number of phase reversals among pairs 1 .. m (R82). -/
def reversals (c : Config) (s : State) (sp : SampleSpace) (start m : Nat) : Nat :=
  (List.range m).countP fun j => c.num.isNeg (pairSum c s sp start (j + 1))

/-- Output bit `m − 1` (R82): INIT_BIT exclusive-or the parity of the reversals among pairs 1 .. m. -/
def bitAfter (c : Config) (s : State) (sp : SampleSpace) (start m : Nat) : Bool :=
  xor s.cfg.initBit (reversals c s sp start m % 2 == 1)

/-- `nout` of R79 and R80. -/
def expectedBits (n cs start nb : Nat) : Nat := min ((n - start) / cs) (nb + 1) - 1

/-- The value of bits `8q .. 8q+7`, the earliest most significant (R85). -/
def byteOfBits (b : Nat → Bool) (q : Nat) : Nat :=
  (b (8 * q)).toNat * 128 + (b (8 * q + 1)).toNat * 64 + (b (8 * q + 2)).toNat * 32 + (b (8 * q + 3)).toNat * 16
    + (b (8 * q + 4)).toNat * 8 + (b (8 * q + 5)).toNat * 4 + (b (8 * q + 6)).toNat * 2 + (b (8 * q + 7)).toNat

/-- The frame test of R88. -/
def FrameValid (c : Config) (s : State) : Prop :=
  4 ≤ s.flen.toNat ∧
    ((readByte c s 0).toNat + (readByte c s 1).toNat + (readByte c s 2).toNat) % 255 = (readByte c s 3).toNat

/-! ### What ending an operation does to STATUS -/

/-- STATUS after an operation that completed (R60). -/
def statusCompleted (s : State) : StatusReg := { s.status with busy := false, done := true }

/-- STATUS after a fault (R98). -/
def statusFaulted (code : FaultCode) (s : State) : StatusReg :=
  { s.status with busy := false, done := true, err := some code }

/-- The checks of R97 in their order: the fault and the stage a command reports, none if it faults not. -/
def firstFault (c : Config) (i : Instr) (s : State) : Option (FaultCode × Stage) :=
  let badLen (n : Nat) := n = 0 ∨ c.nMax < n
  let badRef (n : Nat) := s.rlen.toNat = 0 ∨ c.rMax < s.rlen.toNat ∨ n < s.rlen.toNat
  let len : Src → Nat
    | .x => s.xlen.toNat
    | .y => s.ylen.toNat
  match i with
  | .bandpass => if badLen s.xlen.toNat then some (.badLen, .filter) else none
  | .findSync src =>
    if badLen (len src) then some (.badLen, .sync) else if badRef (len src) then some (.badRef, .sync) else none
  | .demod src =>
    if s.cfg.mode = .absolutePhase then some (.badMode, .demod) else if badLen (len src) then some (.badLen, .demod)
    else if s.chunk.toNat < 2 then some (.badChunk, .demod) else if c.bMax < s.nbits.toNat then some (.badNbits, .demod)
    else none
  | .pack => if c.bMax < s.bitcnt.toNat then some (.badCount, .pack) else none
  | .check => if c.fMax < s.flen.toNat then some (.badCount, .check) else none
  | .csgen =>
    if c.fMax < s.flen.toNat then some (.badCount, .csgen) else if s.flen.toNat < 3 then some (.shortFrame, .csgen)
    else none
  | .decode =>
    if badLen s.xlen.toNat then some (.badLen, .filter) else if badRef s.xlen.toNat then some (.badRef, .sync)
    else if s.cfg.mode = .absolutePhase then some (.badMode, .demod)
    else if s.chunk.toNat < 2 then some (.badChunk, .demod) else none

/-! ### The invariant -/

/-- The stages that can raise each fault (R28, R96). With no fault latched STAGE is 0; after ILLEGAL_CMD it is 0 too. -/
def stagesOf : Option FaultCode → List Stage
  | none => [.idle]
  | some .illegalCmd => [.idle]
  | some .badLen => [.filter, .sync, .demod]
  | some .badRef => [.sync]
  | some .badChunk => [.demod]
  | some .badNbits => [.demod]
  | some .badMode => [.demod]
  | some .badCount => [.pack, .check, .csgen]
  | some .shortFrame => [.csgen]

/-- A memory in its canonical form, with no index outside its space (R41, R54). -/
structure MemoryOk {α : Type} (cap : Nat) (m : Memory α) : Prop where
  wf : Memory.wf m
  within : Memory.within cap m

/-- What holds between any two host accesses, on hardware of configuration `c`. -/
structure Inv (c : Config) (s : State) : Prop where
  /-- an operation is one transition: a host never reads BUSY = 1 (R5, R26) -/
  idle : Idle s
  /-- ERR and STAGE agree (R28, R96) -/
  stageAgrees : s.stage ∈ stagesOf s.status.err
  /-- a latched fault ended its command, so DONE = 1 (R98, R101) -/
  faultDone : Halted s → s.status.done = true
  /-- YLEN is a length of YMEM (R16, R69) -/
  ylenFits : s.ylen.toNat ≤ c.nMax
  /-- SYNC is an index into a waveform, or one past its end (R21) -/
  syncFits : s.sync.toNat ≤ c.nMax
  /-- CSUM is 0 to 254 (R24) -/
  csumRange : s.csum.toNat ≤ 254
  xmemOk : MemoryOk c.nMax s.xmem
  ymemOk : MemoryOk c.nMax s.ymem
  hmemOk : MemoryOk nTaps s.hmem
  rmemOk : MemoryOk c.rMax s.rmem
  bmemOk : MemoryOk c.bMax s.bmem
  fmemOk : MemoryOk c.fMax s.fmem

end Sys2Proof.Machine
end

