-- ==== Sys2Proof/Certificates/Slice0/Obligations.lean ====
section
/-! DEFINITION. The statements for the provers. Each says which rule of spec/ it formalises. -/

open Sys2Proof Sys2Proof.Machine

/-! ### Encoding -/

/-- R57, R59: decoding an encoded operation gives it back, and a word that decodes is the one word of its operation. -/
def Obligations.EncodeAndDecodeAgree : Prop :=
  (∀ i : Instr, i.wf = true → decode (encode i) = .ok i) ∧
    ∀ (w : Word) (i : Instr), decode w = .ok i → encode i = w

/-- R57: `match` and `mask` say which command words select each operation, and SRC which waveform. -/
def Obligations.MatchAndMaskSelectTheOperation : Prop :=
  ∀ w : Word,
    (w &&& 0xFFFFFFFF = 0x00000001 ↔ decode w = .ok .bandpass) ∧
    (w &&& 0xFFFFFFEF = 0x00000002 ↔ decode w = .ok (.findSync .x) ∨ decode w = .ok (.findSync .y)) ∧
    (w &&& 0xFFFFFFEF = 0x00000003 ↔ decode w = .ok (.demod .x) ∨ decode w = .ok (.demod .y)) ∧
    (w &&& 0xFFFFFFFF = 0x00000004 ↔ decode w = .ok .pack) ∧
    (w &&& 0xFFFFFFFF = 0x00000005 ↔ decode w = .ok .check) ∧
    (w &&& 0xFFFFFFFF = 0x00000006 ↔ decode w = .ok .csgen) ∧
    (w &&& 0xFFFFFFFF = 0x00000007 ↔ decode w = .ok .decode) ∧
    ((∃ i, decode w = .ok i) ↔ w ∈ [0x01#32, 0x02, 0x12, 0x03, 0x13, 0x04, 0x05, 0x06, 0x07])

/-- R56 to R58: words written out bit by bit (27 reserved bits, SRC, OP) decode to the operation they stand for. -/
def Obligations.SpecWordsDecode : Prop :=
  decode 0b00000000000000000000000000000001#32 = .ok .bandpass ∧
  decode 0b00000000000000000000000000010010#32 = .ok (.findSync .y) ∧
  decode 0b00000000000000000000000000000011#32 = .ok (.demod .x) ∧
  decode 0b00000000000000000000000000000101#32 = .ok .check ∧
  decode 0b00000000000000000000000000000111#32 = .ok .decode ∧
  decode 0b00000000000000000000000000010001#32 = .error .srcNotTaken ∧
  decode 0b00000000000000000000000000100001#32 = .error .reservedBits

/-! ### The step and the CMD write -/

/-- R60: when the next host access writes to CMD a word that decodes to `i`, and the block accepts it, the step is `exec i`
at the state in which CMD holds the word, DONE is 0, BUSY is 1 and the access has been taken (the model's convention of
what stands in the step and what in `exec`: log 10). -/
def Obligations.StepRunsTheDecodedCommand : Prop :=
  ∀ (s : State) (w : Word) (i : Instr) (rest : List HostAccess),
    s.pending = .writeReg 0 w :: rest → s.status.busy = false → s.status.err = none → decode w = .ok i →
    step s = exec i { s with pending := rest, cmd := w, status := { s.status with done := false, busy := true } }

/-- R60: a CMD write is accepted iff BUSY = 0 and ERR = 0; not accepted, it is ignored entirely; accepted, CMD holds the
word, an illegal word faults, CHECK and DECODE clear VALID before anything else, and an operation that did not fault ends
with STAGE 0, BUSY 0, DONE 1. -/
def Obligations.CommandWriteSequence : Prop :=
  ∀ (s : State) (w : Word) (rest : List HostAccess), s.pending = .writeReg 0 w :: rest →
    (¬(s.status.busy = false ∧ s.status.err = none) → step s = .next { s with pending := rest }) ∧
    (s.status.busy = false → s.status.err = none →
      let a : State := { s with pending := rest, cmd := w, status := { s.status with done := false, busy := true } }
      ((∀ i, decode w ≠ .ok i) →
        step s = .next { a with stage := .idle, status := statusFaulted .illegalCmd a }) ∧
      (∀ i, decode w = .ok i →
        step s = exec i (if i = .check ∨ i = .decode then { a with status := { a.status with valid := false } } else a) ∧
        ∃ t, step s = .next t ∧ t.cmd = w ∧ t.status.busy = false ∧ t.status.done = true ∧
          (t.status.err = none → t.stage = .idle)))

/-- R59: every word other than the nine is illegal; written to CMD when the block accepts, it raises ILLEGAL_CMD and performs
no operation. -/
def Obligations.IllegalWordsFault : Prop :=
  ∀ w : Word, w ∉ [0x01#32, 0x02, 0x12, 0x03, 0x13, 0x04, 0x05, 0x06, 0x07] →
    (∃ r, decode w = .error r) ∧
    ∀ (s : State) (rest : List HostAccess), s.pending = .writeReg 0 w :: rest → s.status.busy = false →
      s.status.err = none →
      step s = .next { s with
        pending := rest, cmd := w, stage := .idle
        status := { busy := false, done := true, valid := s.status.valid, err := some .illegalCmd } }

/-- R118: every operation ends, in one of the two ways, whatever the state; and no step of the machine stops. -/
def Obligations.EveryOperationEnds : Prop :=
  (∀ (i : Instr) (s : State), ∃ t, exec i s = .next t ∧ t.status.busy = false ∧ t.status.done = true ∧
    ((t.status.err = s.status.err ∧ t.stage = .idle) ∨
      (∃ code, t.status.err = some code ∧ t.stage ∈ stagesOf (some code) ∧ t.stage ≠ .idle))) ∧
  ∀ s : State, ∃ t, step s = .next t

/-- R108, R109: with nothing asked by the host the block waits and all state survives (the list of accesses is the
model's: log 8). -/
def Obligations.IdleBlockWaits : Prop :=
  ∀ s : State, s.pending = [] → step s = .next s

/-! ### Faults -/

/-- R98: fault entry writes ERR, BUSY, DONE and (for ILLEGAL_CMD) STAGE, and nothing else; VALID is not touched. -/
def Obligations.FaultEntryWrites : Prop :=
  ∀ (code : FaultCode) (s : State),
    (Run.faulted code s).finish = .next { s with
      stage := if code = .illegalCmd then .idle else s.stage
      status := { busy := false, done := true, valid := s.status.valid, err := some code } }

/-- R97: each operation reports the first check that fails, and the stage that made it; if none fails it does not fault. -/
def Obligations.FirstFailingCheckIsReported : Prop :=
  ∀ (i : Instr) (s t : State), exec i s = .next t →
    match firstFault Config.hw i s with
    | some (code, st) => t.status.err = some code ∧ t.stage = st
    | none => t.status.err = s.status.err ∧ t.stage = .idle

/-- R99: a faulting stage has written no element and no result register. After a fault of a single operation everything but
STATUS and STAGE is as before (CMD was written by the step), VALID cleared for CHECK only; after a fault of DECODE the
earlier stages' outputs stand, the later ones' are untouched, and VALID is 0. -/
def Obligations.FaultsArePrecise : Prop :=
  (∀ (i : Instr) (s t : State) (code : FaultCode), i ≠ .decode → s.status.err = none → exec i s = .next t →
    t.status.err = some code →
    t = { s with
      stage := t.stage
      status := { busy := false, done := true, valid := if i = .check then false else s.status.valid, err := some code } }) ∧
  ∀ (s t : State) (code : FaultCode), s.status.err = none → exec .decode s = .next t → t.status.err = some code →
    t.status = { busy := false, done := true, valid := false, err := some code } ∧
    ((t.stage = .filter ∧ t = { s with stage := t.stage, status := t.status }) ∨
      (∃ f, exec .bandpass s = .next f ∧ f.status.err = none ∧
        ((t.stage = .sync ∧ t = { s with ymem := f.ymem, ylen := f.ylen, stage := t.stage, status := t.status }) ∨
          (t.stage = .demod ∧ ∃ g, exec (.findSync .y) f = .next g ∧ g.status.err = none ∧
            t = { s with ymem := f.ymem, ylen := f.ylen, sync := g.sync, stage := t.stage, status := t.status }))))

/-- R100: while halted every CMD write is ignored, ERR never changes from one nonzero code to another, and it is left only
by a host write to STATUS or by reset (R101). -/
def Obligations.HaltedBlockIgnoresCommands : Prop :=
  ∀ (s t : State) (code : FaultCode), s.status.err = some code → step s = .next t →
    (∀ w rest, s.pending = .writeReg 0 w :: rest → t = { s with pending := rest }) ∧
    (t.status.err = some code ∨
      t.status.err = none ∧ ((∃ v rest, s.pending = .writeReg 1 v :: rest) ∨ ∃ rest, s.pending = .reset :: rest))

/-- R101: any host write to STATUS while idle clears ERR and STAGE and changes nothing else; reset also leaves the halted
state; nothing else does. -/
def Obligations.LeavingTheHaltedState : Prop :=
  (∀ (s : State) (v : Word) (rest : List HostAccess), s.pending = .writeReg 1 v :: rest → Idle s →
    step s = .next { s with pending := rest, stage := .idle, status := { s.status with err := none } }) ∧
  (∀ (s : State) (rest : List HostAccess), s.pending = .reset :: rest →
    ∃ t, step s = .next t ∧ t.status.err = none ∧ t.stage = .idle) ∧
  ∀ s t : State, Halted s → step s = .next t → ¬Halted t →
    (∃ v rest, s.pending = .writeReg 1 v :: rest) ∨ ∃ rest, s.pending = .reset :: rest

/-! ### The operations -/

/-- R69 (with R70, R71): BANDPASS faults BAD_LEN on a bad XLEN; otherwise YMEM[i] is element i + 63 of the full convolution,
summed in ascending order with absent samples skipped, for every i below XLEN; YLEN is XLEN; every other element and
register is unchanged but STAGE, BUSY and DONE. -/
def Obligations.BandpassFiltersTheInput : Prop :=
  ∀ s : State,
    (s.xlen.toNat = 0 ∨ Config.hw.nMax < s.xlen.toNat →
      exec .bandpass s = .next { s with stage := .filter, status := statusFaulted .badLen s }) ∧
    (1 ≤ s.xlen.toNat → s.xlen.toNat ≤ Config.hw.nMax →
      ∃ t, exec .bandpass s = .next t ∧
        t = { s with ymem := t.ymem, ylen := s.xlen, stage := .idle, status := statusCompleted s } ∧
        (∀ i, i < s.xlen.toNat → readSample Config.hw t .ymem i = fullConvolution Config.hw s (i + 63)) ∧
        ∀ i, s.xlen.toNat ≤ i → readSample Config.hw t .ymem i = readSample Config.hw s .ymem i)

/-- R71: for a one-sample input the one output is the single in-range term, h[63]·x[0], added to `zero` as R9 has it
(log 14). -/
def Obligations.OneSampleInputUsesTap63 : Prop :=
  ∀ s : State, s.xlen = 1 → ∃ t, exec .bandpass s = .next t ∧ t.ylen = 1 ∧
    readSample Config.hw t .ymem 0 = Config.hw.num.add Config.hw.num.zero
      (Config.hw.num.mul (readSample Config.hw s .hmem 63) (readSample Config.hw s .xmem 0))

/-- R75: FIND_SYNC faults BAD_LEN, then BAD_REF; otherwise SYNC is the lag that the peak search leaves plus RLEN, and nothing
else changes but STAGE, BUSY and DONE; no memory is written. -/
def Obligations.FindSyncReturnsThePeakEnd : Prop :=
  ∀ (s : State) (src : Src) (n : Nat) (sp : SampleSpace),
    (src = .x → n = s.xlen.toNat ∧ sp = .xmem) → (src = .y → n = s.ylen.toNat ∧ sp = .ymem) →
    (n = 0 ∨ Config.hw.nMax < n →
      exec (.findSync src) s = .next { s with stage := .sync, status := statusFaulted .badLen s }) ∧
    (1 ≤ n → n ≤ Config.hw.nMax → s.rlen.toNat = 0 ∨ Config.hw.rMax < s.rlen.toNat ∨ n < s.rlen.toNat →
      exec (.findSync src) s = .next { s with stage := .sync, status := statusFaulted .badRef s }) ∧
    (n ≤ Config.hw.nMax → 1 ≤ s.rlen.toNat → s.rlen.toNat ≤ Config.hw.rMax → s.rlen.toNat ≤ n →
      ∃ t, exec (.findSync src) s = .next t ∧
        t = { s with sync := t.sync, stage := .idle, status := statusCompleted s } ∧
        t.sync.toNat = loopPeak Config.hw.num (lagSum Config.hw s sp) (n - s.rlen.toNat) + s.rlen.toNat)

/-- R76: whenever `magGt` compares magnitudes, for any configuration, SYNC − RLEN is a lag of greatest magnitude, and the
lowest such lag. -/
def Obligations.PeakIsTheFirstMaximum : Prop :=
  ∀ (c : Config) (β : Type) [LinearOrder β] (mag : Sample → β) (s t : State) (src : Src),
    (∀ a b, c.num.magGt a b = true ↔ mag b < mag a) →
    findSyncOp c src s = .next t → s.status.err = none → t.status.err = none →
    ∃ lag, t.sync.toNat = lag + s.rlen.toNat ∧ lag + s.rlen.toNat ≤ srcLength src s ∧
      (∀ j, j + s.rlen.toNat ≤ srcLength src s → mag (lagSum c s (srcSpace src) j) ≤ mag (lagSum c s (srcSpace src) lag)) ∧
      ∀ j, j < lag → mag (lagSum c s (srcSpace src) j) < mag (lagSum c s (srcSpace src) lag)

/-- R77 and R21: after a successful FIND_SYNC, RLEN ≤ SYNC ≤ the length of the waveform searched. -/
def Obligations.SyncLiesInTheWaveform : Prop :=
  ∀ (s t : State) (src : Src), exec (.findSync src) s = .next t → s.status.err = none → t.status.err = none →
    s.rlen.toNat ≤ t.sync.toNat ∧ t.sync.toNat ≤ srcLength src s

/-- R77, the determinism property: if the correlation at lag `k` strictly exceeds in magnitude every lower lag and is exceeded
by no higher lag, FIND_SYNC returns k + RLEN; for any configuration. -/
def Obligations.ExactCopyIsFound : Prop :=
  ∀ (c : Config) (s t : State) (src : Src) (k : Nat), findSyncOp c src s = .next t → s.status.err = none →
    t.status.err = none → k + s.rlen.toNat ≤ srcLength src s →
    (∀ j, j < k → c.num.magGt (lagSum c s (srcSpace src) k) (lagSum c s (srcSpace src) j) = true) →
    (∀ j, k < j → j + s.rlen.toNat ≤ srcLength src s →
      c.num.magGt (lagSum c s (srcSpace src) j) (lagSum c s (srcSpace src) k) = false) →
    t.sync.toNat = k + s.rlen.toNat

/-- R79 (with R80 to R82): DEMOD makes its checks in order; otherwise BITCNT is the number of bits R80 gives, bit j of BMEM is
INIT_BIT exclusive-or the parity of the reversals among pairs 1 .. j + 1, and every other element and register is
unchanged but STAGE, BUSY and DONE. -/
def Obligations.DemodProducesTheBits : Prop :=
  ∀ (s : State) (src : Src) (n : Nat) (sp : SampleSpace),
    (src = .x → n = s.xlen.toNat ∧ sp = .xmem) → (src = .y → n = s.ylen.toNat ∧ sp = .ymem) →
    (s.cfg.mode = .absolutePhase →
      exec (.demod src) s = .next { s with stage := .demod, status := statusFaulted .badMode s }) ∧
    (s.cfg.mode = .differential →
      (n = 0 ∨ Config.hw.nMax < n →
        exec (.demod src) s = .next { s with stage := .demod, status := statusFaulted .badLen s }) ∧
      (1 ≤ n → n ≤ Config.hw.nMax →
        (s.chunk.toNat < 2 →
          exec (.demod src) s = .next { s with stage := .demod, status := statusFaulted .badChunk s }) ∧
        (2 ≤ s.chunk.toNat → Config.hw.bMax < s.nbits.toNat →
          exec (.demod src) s = .next { s with stage := .demod, status := statusFaulted .badNbits s }) ∧
        (2 ≤ s.chunk.toNat → s.nbits.toNat ≤ Config.hw.bMax →
          ∃ t, exec (.demod src) s = .next t ∧
            t = { s with bmem := t.bmem, bitcnt := t.bitcnt, stage := .idle, status := statusCompleted s } ∧
            t.bitcnt.toNat = expectedBits n s.chunk.toNat s.start.toNat s.nbits.toNat ∧
            (∀ j, j < t.bitcnt.toNat → readBit Config.hw t j = bitAfter Config.hw s sp s.start.toNat (j + 1)) ∧
            ∀ j, t.bitcnt.toNat ≤ j → readBit Config.hw t j = readBit Config.hw s j)))

/-- R80: how many bits a successful DEMOD yields: the full count when NBITS + 1 whole chunks fit, one less than the chunks
that fit when fewer do, none when no more than the reference chunk fits or START is at or beyond the end; and exactly the
count whose last chunk still lies inside the waveform; for any configuration. -/
def Obligations.DemodStopsEarly : Prop :=
  ∀ (c : Config) (s t : State) (src : Src), demodOp c src s = .next t → s.status.err = none → t.status.err = none →
    ((s.nbits.toNat + 1) * s.chunk.toNat + s.start.toNat ≤ srcLength src s → t.bitcnt = s.nbits) ∧
    (srcLength src s < 2 * s.chunk.toNat + s.start.toNat → t.bitcnt = 0) ∧
    (t.bitcnt.toNat ≤ s.nbits.toNat) ∧
    (t.bitcnt.toNat ≠ 0 → (t.bitcnt.toNat + 1) * s.chunk.toNat + s.start.toNat ≤ srcLength src s) ∧
    (t.bitcnt.toNat < s.nbits.toNat → srcLength src s < (t.bitcnt.toNat + 2) * s.chunk.toNat + s.start.toNat)

/-- R82: inverting INIT_BIT inverts every output bit and changes no count; for any configuration. -/
def Obligations.InvertingInitBitInvertsTheBits : Prop :=
  ∀ (c : Config) (s t : State) (src : Src), demodOp c src s = .next t → s.status.err = none → t.status.err = none →
    ∃ u, demodOp c src { s with cfg := { s.cfg with initBit := !s.cfg.initBit } } = .next u ∧
      u.bitcnt = t.bitcnt ∧ ∀ j, j < t.bitcnt.toNat → readBit c u j = !readBit c t j

/-- R84 with R82: if chunk m of the waveform is the chunk for bit B m (two chunks whose products with themselves are not
negative and with each other are), and INIT_BIT is the bit of the reference chunk 0, a successful DEMOD returns B, bit j
being B (j + 1); for any configuration. -/
def Obligations.DemodulationInvertsModulation : Prop :=
  ∀ (c : Config) (s t : State) (src : Src) (chunkOf : Bool → Nat → Sample) (B : Nat → Bool),
    (∀ m i, m ≤ s.nbits.toNat → i < s.chunk.toNat →
      readSample c s (srcSpace src) (s.start.toNat + m * s.chunk.toNat + i) = chunkOf (B m) i) →
    (∀ a b, c.num.isNeg (loopSum c.num s.chunk.toNat (fun _ => true)
      fun i => c.num.mul (chunkOf a i) (chunkOf b i)) = (a != b)) →
    s.cfg.initBit = B 0 → s.status.err = none → demodOp c src s = .next t → t.status.err = none →
    ∀ j, j < t.bitcnt.toNat → readBit c t j = B (j + 1)

/-- R85: PACK faults BAD_COUNT on a bad BITCNT; otherwise it writes BITCNT / 8 bytes, the earliest bit of each the most
significant, and FLEN; every other element and register is unchanged but STAGE, BUSY and DONE. -/
def Obligations.PackPacksMostSignificantFirst : Prop :=
  ∀ s : State,
    (Config.hw.bMax < s.bitcnt.toNat →
      exec .pack s = .next { s with stage := .pack, status := statusFaulted .badCount s }) ∧
    (s.bitcnt.toNat ≤ Config.hw.bMax →
      ∃ t, exec .pack s = .next t ∧
        t = { s with fmem := t.fmem, flen := t.flen, stage := .idle, status := statusCompleted s } ∧
        t.flen.toNat = s.bitcnt.toNat / 8 ∧
        (∀ q, q < t.flen.toNat → (readByte Config.hw t q).toNat = byteOfBits (readBit Config.hw s) q) ∧
        ∀ q, t.flen.toNat ≤ q → readByte Config.hw t q = readByte Config.hw s q)

/-- R86: the last BITCNT mod 8 bits of the sequence influence nothing: whatever they are, PACK does the same. -/
def Obligations.RemainderBitsInfluenceNothing : Prop :=
  ∀ (s : State) (m : Memory Bool),
    (∀ j, j < 8 * (s.bitcnt.toNat / 8) → readBit Config.hw { s with bmem := m } j = readBit Config.hw s j) →
    ∃ t, exec .pack s = .next t ∧ exec .pack { s with bmem := m } = .next { t with bmem := m } ∧
      (s.bitcnt.toNat ≤ Config.hw.bMax → t.flen.toNat = s.bitcnt.toNat / 8) ∧
      (s.bitcnt.toNat < 8 → t.flen = 0)

/-- R88: CHECK faults BAD_COUNT, VALID then 0, on a bad FLEN; otherwise VALID is 1 iff the frame is long enough and its
fourth byte is the sum of the first three modulo 255; nothing else changes but STAGE, BUSY and DONE. -/
def Obligations.CheckSetsValid : Prop :=
  ∀ s : State,
    (Config.hw.fMax < s.flen.toNat →
      exec .check s = .next { s with
        stage := .check, status := { busy := false, done := true, valid := false, err := some .badCount } }) ∧
    (s.flen.toNat ≤ Config.hw.fMax →
      ∃ t, exec .check s = .next t ∧
        t = { s with stage := .idle, status := { statusCompleted s with valid := t.status.valid } } ∧
        (t.status.valid = true ↔ FrameValid Config.hw s))

/-- R89: CSGEN faults BAD_COUNT, then SHORT_FRAME; otherwise CSUM is the sum of the first three bytes modulo 255 and nothing
else changes but STAGE, BUSY and DONE. -/
def Obligations.CsgenWritesTheChecksum : Prop :=
  ∀ s : State,
    (Config.hw.fMax < s.flen.toNat →
      exec .csgen s = .next { s with stage := .csgen, status := statusFaulted .badCount s }) ∧
    (s.flen.toNat < 3 →
      exec .csgen s = .next { s with stage := .csgen, status := statusFaulted .shortFrame s }) ∧
    (3 ≤ s.flen.toNat → s.flen.toNat ≤ Config.hw.fMax →
      ∃ t, exec .csgen s = .next t ∧
        t = { s with csum := t.csum, stage := .idle, status := statusCompleted s } ∧
        t.csum.toNat =
          ((readByte Config.hw s 0).toNat + (readByte Config.hw s 1).toNat + (readByte Config.hw s 2).toNat) % 255)

/-- R90: a frame with its checksum is valid; from a valid frame, any other checksum byte is detected, a changed payload byte
is detected unless it goes 0 to 255 or back, and new payload bytes are undetected exactly when their sum is the same
modulo 255 (so when two payload bytes change places). -/
def Obligations.WhatTheCheckCatches : Prop :=
  ∀ s : State, 4 ≤ s.flen.toNat → s.flen.toNat ≤ Config.hw.fMax →
    let passes (m : Memory Byte) : Prop := ∃ t, exec .check { s with fmem := m } = .next t ∧ t.status.valid = true
    let f := readByte Config.hw s
    passes (Memory.store s.fmem 3 (BitVec.ofNat 8 (((f 0).toNat + (f 1).toNat + (f 2).toNat) % 255))) ∧
    (passes s.fmem →
      (∀ v, v ≠ f 3 → ¬passes (Memory.store s.fmem 3 v)) ∧
      (∀ q v, q < 3 → v ≠ f q →
        (passes (Memory.store s.fmem q v) ↔ f q = 0 ∧ v = 255 ∨ f q = 255 ∧ v = 0)) ∧
      ∀ a b c : Byte, (passes (Memory.store (Memory.store (Memory.store s.fmem 0 a) 1 b) 2 c) ↔
        (a.toNat + b.toNat + c.toNat) % 255 = ((f 0).toNat + (f 1).toNat + (f 2).toNat) % 255))

/-- R91: under its preconditions DECODE completes; the final state holds the outputs of the five stages, each computed from
the outputs of the one before: YMEM from XMEM and HMEM, SYNC and the bits from YMEM, the bytes from the bits, VALID from the
bytes; nothing else changes but STAGE, BUSY and DONE, and START and NBITS are not read. -/
def Obligations.DecodeRunsTheFiveStages : Prop :=
  ∀ s : State, s.xlen.toNat ≤ Config.hw.nMax → 1 ≤ s.rlen.toNat → s.rlen.toNat ≤ Config.hw.rMax →
    s.rlen.toNat ≤ s.xlen.toNat → s.cfg.mode = .differential → 2 ≤ s.chunk.toNat →
    ∃ t, exec .decode s = .next t ∧
      t = { s with
        ymem := t.ymem, ylen := s.xlen, sync := t.sync, bmem := t.bmem, bitcnt := t.bitcnt, fmem := t.fmem, flen := t.flen
        stage := .idle, status := { statusCompleted s with valid := t.status.valid } } ∧
      (∀ i, i < s.xlen.toNat → readSample Config.hw t .ymem i = fullConvolution Config.hw s (i + 63)) ∧
      (∀ i, s.xlen.toNat ≤ i → readSample Config.hw t .ymem i = readSample Config.hw s .ymem i) ∧
      t.sync.toNat = loopPeak Config.hw.num (lagSum Config.hw t .ymem) (s.xlen.toNat - s.rlen.toNat) + s.rlen.toNat ∧
      t.bitcnt.toNat = expectedBits s.xlen.toNat s.chunk.toNat t.sync.toNat 32 ∧
      (∀ j, j < t.bitcnt.toNat → readBit Config.hw t j = bitAfter Config.hw t .ymem t.sync.toNat (j + 1)) ∧
      (∀ j, t.bitcnt.toNat ≤ j → readBit Config.hw t j = readBit Config.hw s j) ∧
      t.flen.toNat = t.bitcnt.toNat / 8 ∧
      (∀ q, q < t.flen.toNat → (readByte Config.hw t q).toNat = byteOfBits (readBit Config.hw t) q) ∧
      (∀ q, t.flen.toNat ≤ q → readByte Config.hw t q = readByte Config.hw s q) ∧
      (t.status.valid = true ↔ FrameValid Config.hw t)

/-- R92: from any idle, unhalted state, DECODE leaves every register and memory element other than CMD, START and NBITS as the
host sequence BANDPASS; FIND_SYNC Y; WR START, SYNC; WR NBITS, 32; DEMOD Y; PACK; CHECK leaves it; if a stage faults the
two agree but for VALID, which DECODE has cleared already. The sequence leaves START = SYNC and NBITS = 32; DECODE leaves both
as they were. -/
def Obligations.DecodeEqualsItsParts : Prop :=
  ∀ s t : State, s.status.busy = false → s.status.err = none →
    step { s with pending := [.writeReg 0 0x07] } = .next t →
    ∃ u v, Host.Core.run Sys2Proof.core 2 { s with pending := [.writeReg 0 0x01, .writeReg 0 0x12] } = .next u ∧
      Host.Core.run Sys2Proof.core 5 { u with pending :=
        [.writeReg 7 u.sync, .writeReg 8 32, .writeReg 0 0x13, .writeReg 0 0x04, .writeReg 0 0x05] } = .next v ∧
      v = { t with
        cmd := v.cmd, start := v.start, nbits := v.nbits
        status := { t.status with valid := if t.status.err = none then t.status.valid else s.status.valid } } ∧
      v.start = u.sync ∧ v.nbits = 32 ∧ t.start = s.start ∧ t.nbits = s.nbits ∧
      (t.status.err ≠ none → t.status.valid = false)

/-- R94: two DECODEs from unhalted states that agree on XMEM below XLEN, XLEN, HMEM, RMEM below RLEN, RLEN, CHUNK and CFG end
with the same VALID, ERR and STAGE and, when they do not fault, the same SYNC, FLEN and FMEM below FLEN, whatever else
differs. (A DECODE that faults leaves FLEN and FMEM, and from the first two stages SYNC, as they were before it.) -/
def Obligations.DecodeDependsOnItsInputsOnly : Prop :=
  ∀ s s' t t' : State, s.status.err = none → s'.status.err = none →
    s.xlen = s'.xlen → s.rlen = s'.rlen → s.chunk = s'.chunk → s.cfg = s'.cfg →
    (∀ i, i < s.xlen.toNat → readSample Config.hw s .xmem i = readSample Config.hw s' .xmem i) →
    (∀ k, k < 128 → readSample Config.hw s .hmem k = readSample Config.hw s' .hmem k) →
    (∀ k, k < s.rlen.toNat → readSample Config.hw s .rmem k = readSample Config.hw s' .rmem k) →
    exec .decode s = .next t → exec .decode s' = .next t' →
    t.status = t'.status ∧ t.stage = t'.stage ∧
      (t.status.err = none → t.sync = t'.sync ∧ t.flen = t'.flen ∧
        ∀ q, q < t.flen.toNat → readByte Config.hw t q = readByte Config.hw t' q)

/-- R94: when fewer than 33 whole chunks follow SYNC in the waveform, DECODE completes without a fault and VALID is 0, always;
fewer than 32 bits and fewer than 4 bytes are produced. -/
def Obligations.ShortWaveformNeverValid : Prop :=
  ∀ s t : State, s.status.err = none → exec .decode s = .next t → t.status.err = none →
    s.xlen.toNat < t.sync.toNat + 33 * s.chunk.toNat →
    t.status.valid = false ∧ t.bitcnt.toNat < 32 ∧ t.flen.toNat < 4

/-- R37: repeating an operation that did not fault changes nothing, for every operation, from every state whose memories are in
canonical form. -/
def Obligations.RepeatingAnOperationChangesNothing : Prop :=
  ∀ (i : Instr) (s t : State), Inv Config.hw { s with status := { s.status with busy := false } } →
    exec i s = .next t → t.status.err = none → exec i t = .next t

/-! ### Who writes what -/

/-- R55 (with the tables of R14 and R41): no operation writes XMEM, HMEM, RMEM or an input register; each output is written
only by the operations the tables name. -/
def Obligations.OperationsWriteOnlyTheirOutputs : Prop :=
  ∀ (i : Instr) (s t : State), exec i s = .next t →
    (t.xmem = s.xmem ∧ t.hmem = s.hmem ∧ t.rmem = s.rmem ∧ t.cfg = s.cfg ∧ t.xlen = s.xlen ∧ t.rlen = s.rlen ∧
      t.chunk = s.chunk ∧ t.start = s.start ∧ t.nbits = s.nbits ∧ t.cmd = s.cmd) ∧
    (t.pending = s.pending ∧ t.lastRead = s.lastRead ∧ t.epoch = s.epoch ∧ t.draws = s.draws) ∧
    (i ≠ .bandpass → i ≠ .decode → t.ymem = s.ymem ∧ t.ylen = s.ylen) ∧
    ((∀ src, i ≠ .findSync src) → i ≠ .decode → t.sync = s.sync) ∧
    ((∀ src, i ≠ .demod src) → i ≠ .decode → t.bmem = s.bmem ∧ t.bitcnt = s.bitcnt) ∧
    (i ≠ .pack → i ≠ .decode → t.fmem = s.fmem ∧ t.flen = s.flen) ∧
    (i ≠ .csgen → t.csum = s.csum)

/-- R29: VALID is written by CHECK and DECODE only; they do not depend on its old value and leave it 0 when they fault; the
others leave it as it was, and no operation's result depends on it. -/
def Obligations.OnlyCheckAndDecodeTouchValid : Prop :=
  ∀ (i : Instr) (s : State), ∃ t, exec i s = .next t ∧
    (i = .check ∨ i = .decode →
      (∀ b, exec i { s with status := { s.status with valid := b } } = .next t) ∧
      (s.status.err = none → t.status.err ≠ none → t.status.valid = false)) ∧
    (i ≠ .check → i ≠ .decode → t.status.valid = s.status.valid ∧
      ∀ b, exec i { s with status := { s.status with valid := b } } =
        .next { t with status := { t.status with valid := b } })

/-! ### The host -/

/-- R14, R42, R43, R45: a host read of an idle block changes nothing of it; in range the answer is the element's value, each
register being named by its number (the log of the answer and the counter of the free values are the model's: log 6, log 9).
What STATUS, CFG and STAGE read as is in StatusWordLayout and CfgAndStageWords. -/
def Obligations.HostReadChangesNothing : Prop :=
  ∀ (s : State) (sp : Space) (i : Nat) (rest : List HostAccess), s.pending = .read sp i :: rest → Idle s →
    ∃ t, step s = .next t ∧ t = { s with pending := rest, lastRead := t.lastRead, draws := t.draws } ∧
      (∀ w, sp = .reg →
        (i, w) ∈ [(0, s.cmd), (1, readReg s .status), (2, readReg s .cfg), (3, s.xlen), (4, s.ylen), (5, s.rlen),
          (6, s.chunk), (7, s.start), (8, s.nbits), (9, s.sync), (10, s.bitcnt), (11, s.flen), (12, s.csum),
          (13, readReg s .stage)] →
        t.lastRead = some (.word w)) ∧
      (∀ m, sp = .sample m → i < Config.hw.capacity m → t.lastRead = some (.sample (readSample Config.hw s m i))) ∧
      (sp = .bmem → i < Config.hw.bMax → t.lastRead = some (.bit (readBit Config.hw s i))) ∧
      (sp = .fmem → i < Config.hw.fMax → t.lastRead = some (.byte (readByte Config.hw s i)))

/-- R42, R43, R49: a host write to a memory replaces exactly one element, and is ignored in YMEM and out of range. -/
def Obligations.HostWriteReplacesOneElement : Prop :=
  ∀ (s : State) (rest : List HostAccess), Idle s →
    (∀ m i v, s.pending = .writeSample m i v :: rest → ∃ t, step s = .next t ∧
      t = { s with pending := rest, xmem := t.xmem, hmem := t.hmem, rmem := t.rmem } ∧
      ∀ m' j, readSample Config.hw t m' j =
        if m ≠ .ymem ∧ i < Config.hw.capacity m ∧ m' = m ∧ j = i then v else readSample Config.hw s m' j) ∧
    (∀ i v, s.pending = .writeBit i v :: rest → ∃ t, step s = .next t ∧
      t = { s with pending := rest, bmem := t.bmem } ∧
      ∀ j, readBit Config.hw t j = if i < Config.hw.bMax ∧ j = i then v else readBit Config.hw s j) ∧
    ∀ i v, s.pending = .writeByte i v :: rest → ∃ t, step s = .next t ∧
      t = { s with pending := rest, fmem := t.fmem } ∧
      ∀ j, readByte Config.hw t j = if i < Config.hw.fMax ∧ j = i then v else readByte Config.hw s j

/-- R14, R27, R43: a host write to register `n` (not CMD, not STATUS), each named by its number: the seven writable registers
that hold a number store it whole, CFG keeps bits 1:0 as MODE and INIT_BIT, the read-only registers and the numbers that name
none ignore it; nothing else changes. -/
def Obligations.HostWritesToRegisters : Prop :=
  ∀ (s : State) (n : Nat) (v : Word) (rest : List HostAccess), s.pending = .writeReg n v :: rest → Idle s → 2 ≤ n →
    ∃ t, step s = .next t ∧
      (n = 2 → t = { s with pending := rest, cfg := t.cfg } ∧ readReg t .cfg = v &&& 3 ∧
        t.cfg.initBit = v.getLsbD 0 ∧ (t.cfg.mode = .absolutePhase ↔ v.getLsbD 1 = true)) ∧
      (n = 3 → t = { s with pending := rest, xlen := v }) ∧
      (n = 5 → t = { s with pending := rest, rlen := v }) ∧
      (n = 6 → t = { s with pending := rest, chunk := v }) ∧
      (n = 7 → t = { s with pending := rest, start := v }) ∧
      (n = 8 → t = { s with pending := rest, nbits := v }) ∧
      (n = 10 → t = { s with pending := rest, bitcnt := v }) ∧
      (n = 11 → t = { s with pending := rest, flen := v }) ∧
      (n = 4 ∨ n = 9 ∨ n = 12 ∨ n = 13 ∨ 14 ≤ n → t = { s with pending := rest })

/-- R26, R96: STATUS reads as its fields at their bits, reserved bits 0. -/
def Obligations.StatusWordLayout : Prop :=
  ∀ s : State,
    (readReg s .status).getLsbD 0 = s.status.busy ∧ (readReg s .status).getLsbD 1 = s.status.done ∧
    (readReg s .status).getLsbD 2 = s.status.valid ∧ (readReg s .status).getLsbD 3 = false ∧
    (readReg s .status).extractLsb' 8 24 = 0 ∧
    (readReg s .status).extractLsb' 4 4 = match s.status.err with
      | none => 0
      | some .illegalCmd => 1
      | some .badLen => 2
      | some .badRef => 3
      | some .badChunk => 4
      | some .badNbits => 5
      | some .badMode => 6
      | some .badCount => 7
      | some .shortFrame => 8

/-- R53: while BUSY every host write is ignored, a CMD write too, and a read changes nothing of the block; STATUS then reads
BUSY = 1 and DONE = 0. -/
def Obligations.BusyBlockIgnoresWrites : Prop :=
  ∀ (s : State) (a : HostAccess) (rest : List HostAccess), s.pending = a :: rest → s.status.busy = true → a ≠ .reset →
    ∃ t, step s = .next t ∧
      ((∀ sp i, a ≠ .read sp i) → t = { s with pending := rest }) ∧
      (∀ sp i, a = .read sp i → t = { s with pending := rest, lastRead := t.lastRead, draws := t.draws }) ∧
      (a = .read .reg 1 → ∃ w, t.lastRead = some (.word w) ∧ w.getLsbD 0 = true ∧ w.getLsbD 1 = false)

/-! ### Reset and the invariant -/

/-- R39: the register values after reset. -/
def Obligations.RegistersAfterReset : Prop :=
  ∀ r : Reg, readReg State.reset r = if r = .cfg then 0x00000001 else 0x00000000

/-- R109: reset, at any time and also while BUSY, puts every register at its reset value; the block is idle and not halted.
(That nothing is known of the memories is the model's reading of R40: log 5.) -/
def Obligations.ResetInput : Prop :=
  ∀ (s : State) (rest : List HostAccess), s.pending = .reset :: rest →
    ∃ t, step s = .next t ∧ t.pending = rest ∧ (∀ r, readReg t r = readReg State.reset r) ∧ Idle t ∧ ¬Halted t

/-- The invariant of Safety.lean (R5, R16, R21, R24, R28, R54, R96, R98) holds at reset. -/
def Obligations.ResetMeetsTheInvariant : Prop :=
  Inv Config.hw State.reset

/-- Every step keeps the invariant, whatever the host asks: BUSY reads 0 between accesses, ERR and STAGE agree, YLEN and SYNC
are bounded by N_MAX, CSUM by 254, and every memory keeps its canonical form within its space. -/
def Obligations.StepKeepsTheInvariant : Prop :=
  ∀ s t : State, Inv Config.hw s → step s = .next t → Inv Config.hw t

/-! ### How CFG and STAGE read -/

/-- R27, R28: CFG reads as INIT_BIT at bit 0, MODE at bit 1 and 0 elsewhere; STAGE reads as the number of its stage. -/
def Obligations.CfgAndStageWords : Prop :=
  ∀ s : State,
    (readReg s .cfg).getLsbD 0 = s.cfg.initBit ∧
    ((readReg s .cfg).getLsbD 1 = true ↔ s.cfg.mode = .absolutePhase) ∧
    (readReg s .cfg).extractLsb' 2 30 = 0 ∧
    readReg s .stage = match s.stage with
      | .idle => 0
      | .filter => 1
      | .sync => 2
      | .demod => 3
      | .pack => 4
      | .check => 5
      | .csgen => 6
end

