-- ==== Sys2Proof/Laws/Config.lean ====
section
/-! SUPPORT. The capacities meet the constraints of 00_scope.md R7, and every legal choice of capacities is some
configuration's. -/

namespace Sys2Proof

variable (c : Config)

theorem Config.one_le_nMax : 1 ≤ c.nMax := by simp only [Config.nMax]; omega

theorem Config.nMax_lt : c.nMax < 2 ^ 32 := by simp only [Config.nMax]; omega

theorem Config.one_le_rMax : 1 ≤ c.rMax := by simp only [Config.rMax, Config.nMax]; omega

theorem Config.rMax_le_nMax : c.rMax ≤ c.nMax := by simp only [Config.rMax]; omega

theorem Config.four_le_fMax : 4 ≤ c.fMax := by simp only [Config.fMax]; omega

theorem Config.fMax_lt : c.fMax < 2 ^ 29 := by simp only [Config.fMax]; omega

theorem Config.bMax_eq : c.bMax = 8 * c.fMax := rfl

theorem Config.fMax_eq : c.fMax = c.bMax / 8 := by simp only [Config.bMax]; omega

theorem Config.bMax_ge : 32 ≤ c.bMax := by
  have := c.four_le_fMax
  simp only [Config.bMax]; omega

theorem Config.bMax_lt : c.bMax < 2 ^ 32 - 1 := by
  have := c.fMax_lt
  simp only [Config.bMax]; omega

/-- No legal implementation is shut out (R7). -/
theorem Config.every_capacity (n r b : Nat) (hn : 1 ≤ n) (hn' : n < 2 ^ 32) (hr : 1 ≤ r) (hr' : r ≤ n)
    (hb : 32 ≤ b) (hb' : b < 2 ^ 32 - 1) (h8 : b % 8 = 0) :
    ∃ c' : Config, c'.nMax = n ∧ c'.rMax = r ∧ c'.bMax = b := by
  refine ⟨{ (default : Config) with samplesAsked := n - 1, referenceAsked := r - 1, frameBytesAsked := b / 8 - 4 }, ?_, ?_, ?_⟩ <;>
    simp only [Config.rMax, Config.nMax, Config.bMax, Config.fMax] <;> omega

end Sys2Proof
end

