-- ==== Sys2Proof/Laws/State.lean ====
section
/-! SUPPORT. One lemma per field per named update of the state, so that no later proof unfolds a record update. -/

namespace Sys2Proof.Machine

section

variable (s : State)

/-! ### enterStage -/

@[simp] theorem enterStage_cmd (st : Stage) : (enterStage st s).cmd = s.cmd := rfl
@[simp] theorem enterStage_status (st : Stage) : (enterStage st s).status = s.status := rfl
@[simp] theorem enterStage_cfg (st : Stage) : (enterStage st s).cfg = s.cfg := rfl
@[simp] theorem enterStage_xlen (st : Stage) : (enterStage st s).xlen = s.xlen := rfl
@[simp] theorem enterStage_ylen (st : Stage) : (enterStage st s).ylen = s.ylen := rfl
@[simp] theorem enterStage_rlen (st : Stage) : (enterStage st s).rlen = s.rlen := rfl
@[simp] theorem enterStage_chunk (st : Stage) : (enterStage st s).chunk = s.chunk := rfl
@[simp] theorem enterStage_start (st : Stage) : (enterStage st s).start = s.start := rfl
@[simp] theorem enterStage_nbits (st : Stage) : (enterStage st s).nbits = s.nbits := rfl
@[simp] theorem enterStage_sync (st : Stage) : (enterStage st s).sync = s.sync := rfl
@[simp] theorem enterStage_bitcnt (st : Stage) : (enterStage st s).bitcnt = s.bitcnt := rfl
@[simp] theorem enterStage_flen (st : Stage) : (enterStage st s).flen = s.flen := rfl
@[simp] theorem enterStage_csum (st : Stage) : (enterStage st s).csum = s.csum := rfl
@[simp] theorem enterStage_stage (st : Stage) : (enterStage st s).stage = st := rfl
@[simp] theorem enterStage_xmem (st : Stage) : (enterStage st s).xmem = s.xmem := rfl
@[simp] theorem enterStage_ymem (st : Stage) : (enterStage st s).ymem = s.ymem := rfl
@[simp] theorem enterStage_hmem (st : Stage) : (enterStage st s).hmem = s.hmem := rfl
@[simp] theorem enterStage_rmem (st : Stage) : (enterStage st s).rmem = s.rmem := rfl
@[simp] theorem enterStage_bmem (st : Stage) : (enterStage st s).bmem = s.bmem := rfl
@[simp] theorem enterStage_fmem (st : Stage) : (enterStage st s).fmem = s.fmem := rfl
@[simp] theorem enterStage_pending (st : Stage) : (enterStage st s).pending = s.pending := rfl
@[simp] theorem enterStage_lastRead (st : Stage) : (enterStage st s).lastRead = s.lastRead := rfl
@[simp] theorem enterStage_epoch (st : Stage) : (enterStage st s).epoch = s.epoch := rfl
@[simp] theorem enterStage_draws (st : Stage) : (enterStage st s).draws = s.draws := rfl

/-! ### raiseFault -/

@[simp] theorem raiseFault_cmd (code : FaultCode) : (raiseFault code s).cmd = s.cmd := rfl
@[simp] theorem raiseFault_status (code : FaultCode) :
    (raiseFault code s).status = { s.status with busy := false, done := true, err := some code } := rfl
@[simp] theorem raiseFault_cfg (code : FaultCode) : (raiseFault code s).cfg = s.cfg := rfl
@[simp] theorem raiseFault_xlen (code : FaultCode) : (raiseFault code s).xlen = s.xlen := rfl
@[simp] theorem raiseFault_ylen (code : FaultCode) : (raiseFault code s).ylen = s.ylen := rfl
@[simp] theorem raiseFault_rlen (code : FaultCode) : (raiseFault code s).rlen = s.rlen := rfl
@[simp] theorem raiseFault_chunk (code : FaultCode) : (raiseFault code s).chunk = s.chunk := rfl
@[simp] theorem raiseFault_start (code : FaultCode) : (raiseFault code s).start = s.start := rfl
@[simp] theorem raiseFault_nbits (code : FaultCode) : (raiseFault code s).nbits = s.nbits := rfl
@[simp] theorem raiseFault_sync (code : FaultCode) : (raiseFault code s).sync = s.sync := rfl
@[simp] theorem raiseFault_bitcnt (code : FaultCode) : (raiseFault code s).bitcnt = s.bitcnt := rfl
@[simp] theorem raiseFault_flen (code : FaultCode) : (raiseFault code s).flen = s.flen := rfl
@[simp] theorem raiseFault_csum (code : FaultCode) : (raiseFault code s).csum = s.csum := rfl
@[simp] theorem raiseFault_stage (code : FaultCode) :
    (raiseFault code s).stage = if code = .illegalCmd then .idle else s.stage := rfl
@[simp] theorem raiseFault_xmem (code : FaultCode) : (raiseFault code s).xmem = s.xmem := rfl
@[simp] theorem raiseFault_ymem (code : FaultCode) : (raiseFault code s).ymem = s.ymem := rfl
@[simp] theorem raiseFault_hmem (code : FaultCode) : (raiseFault code s).hmem = s.hmem := rfl
@[simp] theorem raiseFault_rmem (code : FaultCode) : (raiseFault code s).rmem = s.rmem := rfl
@[simp] theorem raiseFault_bmem (code : FaultCode) : (raiseFault code s).bmem = s.bmem := rfl
@[simp] theorem raiseFault_fmem (code : FaultCode) : (raiseFault code s).fmem = s.fmem := rfl
@[simp] theorem raiseFault_pending (code : FaultCode) : (raiseFault code s).pending = s.pending := rfl
@[simp] theorem raiseFault_lastRead (code : FaultCode) : (raiseFault code s).lastRead = s.lastRead := rfl
@[simp] theorem raiseFault_epoch (code : FaultCode) : (raiseFault code s).epoch = s.epoch := rfl
@[simp] theorem raiseFault_draws (code : FaultCode) : (raiseFault code s).draws = s.draws := rfl

/-! ### clearFault -/

@[simp] theorem clearFault_cmd : (clearFault s).cmd = s.cmd := rfl
@[simp] theorem clearFault_status : (clearFault s).status = { s.status with err := none } := rfl
@[simp] theorem clearFault_cfg : (clearFault s).cfg = s.cfg := rfl
@[simp] theorem clearFault_xlen : (clearFault s).xlen = s.xlen := rfl
@[simp] theorem clearFault_ylen : (clearFault s).ylen = s.ylen := rfl
@[simp] theorem clearFault_rlen : (clearFault s).rlen = s.rlen := rfl
@[simp] theorem clearFault_chunk : (clearFault s).chunk = s.chunk := rfl
@[simp] theorem clearFault_start : (clearFault s).start = s.start := rfl
@[simp] theorem clearFault_nbits : (clearFault s).nbits = s.nbits := rfl
@[simp] theorem clearFault_sync : (clearFault s).sync = s.sync := rfl
@[simp] theorem clearFault_bitcnt : (clearFault s).bitcnt = s.bitcnt := rfl
@[simp] theorem clearFault_flen : (clearFault s).flen = s.flen := rfl
@[simp] theorem clearFault_csum : (clearFault s).csum = s.csum := rfl
@[simp] theorem clearFault_stage : (clearFault s).stage = .idle := rfl
@[simp] theorem clearFault_xmem : (clearFault s).xmem = s.xmem := rfl
@[simp] theorem clearFault_ymem : (clearFault s).ymem = s.ymem := rfl
@[simp] theorem clearFault_hmem : (clearFault s).hmem = s.hmem := rfl
@[simp] theorem clearFault_rmem : (clearFault s).rmem = s.rmem := rfl
@[simp] theorem clearFault_bmem : (clearFault s).bmem = s.bmem := rfl
@[simp] theorem clearFault_fmem : (clearFault s).fmem = s.fmem := rfl
@[simp] theorem clearFault_pending : (clearFault s).pending = s.pending := rfl
@[simp] theorem clearFault_lastRead : (clearFault s).lastRead = s.lastRead := rfl
@[simp] theorem clearFault_epoch : (clearFault s).epoch = s.epoch := rfl
@[simp] theorem clearFault_draws : (clearFault s).draws = s.draws := rfl

/-! ### acceptCommand -/

@[simp] theorem acceptCommand_cmd (w : Word) : (acceptCommand w s).cmd = w := rfl
@[simp] theorem acceptCommand_status (w : Word) :
    (acceptCommand w s).status = { s.status with done := false, busy := true } := rfl
@[simp] theorem acceptCommand_cfg (w : Word) : (acceptCommand w s).cfg = s.cfg := rfl
@[simp] theorem acceptCommand_xlen (w : Word) : (acceptCommand w s).xlen = s.xlen := rfl
@[simp] theorem acceptCommand_ylen (w : Word) : (acceptCommand w s).ylen = s.ylen := rfl
@[simp] theorem acceptCommand_rlen (w : Word) : (acceptCommand w s).rlen = s.rlen := rfl
@[simp] theorem acceptCommand_chunk (w : Word) : (acceptCommand w s).chunk = s.chunk := rfl
@[simp] theorem acceptCommand_start (w : Word) : (acceptCommand w s).start = s.start := rfl
@[simp] theorem acceptCommand_nbits (w : Word) : (acceptCommand w s).nbits = s.nbits := rfl
@[simp] theorem acceptCommand_sync (w : Word) : (acceptCommand w s).sync = s.sync := rfl
@[simp] theorem acceptCommand_bitcnt (w : Word) : (acceptCommand w s).bitcnt = s.bitcnt := rfl
@[simp] theorem acceptCommand_flen (w : Word) : (acceptCommand w s).flen = s.flen := rfl
@[simp] theorem acceptCommand_csum (w : Word) : (acceptCommand w s).csum = s.csum := rfl
@[simp] theorem acceptCommand_stage (w : Word) : (acceptCommand w s).stage = s.stage := rfl
@[simp] theorem acceptCommand_xmem (w : Word) : (acceptCommand w s).xmem = s.xmem := rfl
@[simp] theorem acceptCommand_ymem (w : Word) : (acceptCommand w s).ymem = s.ymem := rfl
@[simp] theorem acceptCommand_hmem (w : Word) : (acceptCommand w s).hmem = s.hmem := rfl
@[simp] theorem acceptCommand_rmem (w : Word) : (acceptCommand w s).rmem = s.rmem := rfl
@[simp] theorem acceptCommand_bmem (w : Word) : (acceptCommand w s).bmem = s.bmem := rfl
@[simp] theorem acceptCommand_fmem (w : Word) : (acceptCommand w s).fmem = s.fmem := rfl
@[simp] theorem acceptCommand_pending (w : Word) : (acceptCommand w s).pending = s.pending := rfl
@[simp] theorem acceptCommand_lastRead (w : Word) : (acceptCommand w s).lastRead = s.lastRead := rfl
@[simp] theorem acceptCommand_epoch (w : Word) : (acceptCommand w s).epoch = s.epoch := rfl
@[simp] theorem acceptCommand_draws (w : Word) : (acceptCommand w s).draws = s.draws := rfl

/-! ### complete -/

@[simp] theorem complete_cmd : (complete s).cmd = s.cmd := rfl
@[simp] theorem complete_status : (complete s).status = { s.status with busy := false, done := true } := rfl
@[simp] theorem complete_cfg : (complete s).cfg = s.cfg := rfl
@[simp] theorem complete_xlen : (complete s).xlen = s.xlen := rfl
@[simp] theorem complete_ylen : (complete s).ylen = s.ylen := rfl
@[simp] theorem complete_rlen : (complete s).rlen = s.rlen := rfl
@[simp] theorem complete_chunk : (complete s).chunk = s.chunk := rfl
@[simp] theorem complete_start : (complete s).start = s.start := rfl
@[simp] theorem complete_nbits : (complete s).nbits = s.nbits := rfl
@[simp] theorem complete_sync : (complete s).sync = s.sync := rfl
@[simp] theorem complete_bitcnt : (complete s).bitcnt = s.bitcnt := rfl
@[simp] theorem complete_flen : (complete s).flen = s.flen := rfl
@[simp] theorem complete_csum : (complete s).csum = s.csum := rfl
@[simp] theorem complete_stage : (complete s).stage = .idle := rfl
@[simp] theorem complete_xmem : (complete s).xmem = s.xmem := rfl
@[simp] theorem complete_ymem : (complete s).ymem = s.ymem := rfl
@[simp] theorem complete_hmem : (complete s).hmem = s.hmem := rfl
@[simp] theorem complete_rmem : (complete s).rmem = s.rmem := rfl
@[simp] theorem complete_bmem : (complete s).bmem = s.bmem := rfl
@[simp] theorem complete_fmem : (complete s).fmem = s.fmem := rfl
@[simp] theorem complete_pending : (complete s).pending = s.pending := rfl
@[simp] theorem complete_lastRead : (complete s).lastRead = s.lastRead := rfl
@[simp] theorem complete_epoch : (complete s).epoch = s.epoch := rfl
@[simp] theorem complete_draws : (complete s).draws = s.draws := rfl

/-! ### clearValid -/

@[simp] theorem clearValid_cmd : (clearValid s).cmd = s.cmd := rfl
@[simp] theorem clearValid_status : (clearValid s).status = { s.status with valid := false } := rfl
@[simp] theorem clearValid_cfg : (clearValid s).cfg = s.cfg := rfl
@[simp] theorem clearValid_xlen : (clearValid s).xlen = s.xlen := rfl
@[simp] theorem clearValid_ylen : (clearValid s).ylen = s.ylen := rfl
@[simp] theorem clearValid_rlen : (clearValid s).rlen = s.rlen := rfl
@[simp] theorem clearValid_chunk : (clearValid s).chunk = s.chunk := rfl
@[simp] theorem clearValid_start : (clearValid s).start = s.start := rfl
@[simp] theorem clearValid_nbits : (clearValid s).nbits = s.nbits := rfl
@[simp] theorem clearValid_sync : (clearValid s).sync = s.sync := rfl
@[simp] theorem clearValid_bitcnt : (clearValid s).bitcnt = s.bitcnt := rfl
@[simp] theorem clearValid_flen : (clearValid s).flen = s.flen := rfl
@[simp] theorem clearValid_csum : (clearValid s).csum = s.csum := rfl
@[simp] theorem clearValid_stage : (clearValid s).stage = s.stage := rfl
@[simp] theorem clearValid_xmem : (clearValid s).xmem = s.xmem := rfl
@[simp] theorem clearValid_ymem : (clearValid s).ymem = s.ymem := rfl
@[simp] theorem clearValid_hmem : (clearValid s).hmem = s.hmem := rfl
@[simp] theorem clearValid_rmem : (clearValid s).rmem = s.rmem := rfl
@[simp] theorem clearValid_bmem : (clearValid s).bmem = s.bmem := rfl
@[simp] theorem clearValid_fmem : (clearValid s).fmem = s.fmem := rfl
@[simp] theorem clearValid_pending : (clearValid s).pending = s.pending := rfl
@[simp] theorem clearValid_lastRead : (clearValid s).lastRead = s.lastRead := rfl
@[simp] theorem clearValid_epoch : (clearValid s).epoch = s.epoch := rfl
@[simp] theorem clearValid_draws : (clearValid s).draws = s.draws := rfl

/-! ### storeFiltered -/

@[simp] theorem storeFiltered_cmd (c : Config) : (storeFiltered c s).cmd = s.cmd := rfl
@[simp] theorem storeFiltered_status (c : Config) : (storeFiltered c s).status = s.status := rfl
@[simp] theorem storeFiltered_cfg (c : Config) : (storeFiltered c s).cfg = s.cfg := rfl
@[simp] theorem storeFiltered_xlen (c : Config) : (storeFiltered c s).xlen = s.xlen := rfl
@[simp] theorem storeFiltered_ylen (c : Config) : (storeFiltered c s).ylen = s.xlen := rfl
@[simp] theorem storeFiltered_rlen (c : Config) : (storeFiltered c s).rlen = s.rlen := rfl
@[simp] theorem storeFiltered_chunk (c : Config) : (storeFiltered c s).chunk = s.chunk := rfl
@[simp] theorem storeFiltered_start (c : Config) : (storeFiltered c s).start = s.start := rfl
@[simp] theorem storeFiltered_nbits (c : Config) : (storeFiltered c s).nbits = s.nbits := rfl
@[simp] theorem storeFiltered_sync (c : Config) : (storeFiltered c s).sync = s.sync := rfl
@[simp] theorem storeFiltered_bitcnt (c : Config) : (storeFiltered c s).bitcnt = s.bitcnt := rfl
@[simp] theorem storeFiltered_flen (c : Config) : (storeFiltered c s).flen = s.flen := rfl
@[simp] theorem storeFiltered_csum (c : Config) : (storeFiltered c s).csum = s.csum := rfl
@[simp] theorem storeFiltered_stage (c : Config) : (storeFiltered c s).stage = s.stage := rfl
@[simp] theorem storeFiltered_xmem (c : Config) : (storeFiltered c s).xmem = s.xmem := rfl
@[simp] theorem storeFiltered_ymem (c : Config) :
    (storeFiltered c s).ymem = Memory.storeUpTo (filterSample c s s.xlen.toNat) s.ymem s.xlen.toNat := rfl
@[simp] theorem storeFiltered_hmem (c : Config) : (storeFiltered c s).hmem = s.hmem := rfl
@[simp] theorem storeFiltered_rmem (c : Config) : (storeFiltered c s).rmem = s.rmem := rfl
@[simp] theorem storeFiltered_bmem (c : Config) : (storeFiltered c s).bmem = s.bmem := rfl
@[simp] theorem storeFiltered_fmem (c : Config) : (storeFiltered c s).fmem = s.fmem := rfl
@[simp] theorem storeFiltered_pending (c : Config) : (storeFiltered c s).pending = s.pending := rfl
@[simp] theorem storeFiltered_lastRead (c : Config) : (storeFiltered c s).lastRead = s.lastRead := rfl
@[simp] theorem storeFiltered_epoch (c : Config) : (storeFiltered c s).epoch = s.epoch := rfl
@[simp] theorem storeFiltered_draws (c : Config) : (storeFiltered c s).draws = s.draws := rfl

/-! ### storeSync -/

@[simp] theorem storeSync_cmd (c : Config) (src : Src) : (storeSync c src s).cmd = s.cmd := rfl
@[simp] theorem storeSync_status (c : Config) (src : Src) : (storeSync c src s).status = s.status := rfl
@[simp] theorem storeSync_cfg (c : Config) (src : Src) : (storeSync c src s).cfg = s.cfg := rfl
@[simp] theorem storeSync_xlen (c : Config) (src : Src) : (storeSync c src s).xlen = s.xlen := rfl
@[simp] theorem storeSync_ylen (c : Config) (src : Src) : (storeSync c src s).ylen = s.ylen := rfl
@[simp] theorem storeSync_rlen (c : Config) (src : Src) : (storeSync c src s).rlen = s.rlen := rfl
@[simp] theorem storeSync_chunk (c : Config) (src : Src) : (storeSync c src s).chunk = s.chunk := rfl
@[simp] theorem storeSync_start (c : Config) (src : Src) : (storeSync c src s).start = s.start := rfl
@[simp] theorem storeSync_nbits (c : Config) (src : Src) : (storeSync c src s).nbits = s.nbits := rfl
@[simp] theorem storeSync_sync (c : Config) (src : Src) :
    (storeSync c src s).sync = BitVec.ofNat 32 (syncOffset c src s) := rfl
@[simp] theorem storeSync_bitcnt (c : Config) (src : Src) : (storeSync c src s).bitcnt = s.bitcnt := rfl
@[simp] theorem storeSync_flen (c : Config) (src : Src) : (storeSync c src s).flen = s.flen := rfl
@[simp] theorem storeSync_csum (c : Config) (src : Src) : (storeSync c src s).csum = s.csum := rfl
@[simp] theorem storeSync_stage (c : Config) (src : Src) : (storeSync c src s).stage = s.stage := rfl
@[simp] theorem storeSync_xmem (c : Config) (src : Src) : (storeSync c src s).xmem = s.xmem := rfl
@[simp] theorem storeSync_ymem (c : Config) (src : Src) : (storeSync c src s).ymem = s.ymem := rfl
@[simp] theorem storeSync_hmem (c : Config) (src : Src) : (storeSync c src s).hmem = s.hmem := rfl
@[simp] theorem storeSync_rmem (c : Config) (src : Src) : (storeSync c src s).rmem = s.rmem := rfl
@[simp] theorem storeSync_bmem (c : Config) (src : Src) : (storeSync c src s).bmem = s.bmem := rfl
@[simp] theorem storeSync_fmem (c : Config) (src : Src) : (storeSync c src s).fmem = s.fmem := rfl
@[simp] theorem storeSync_pending (c : Config) (src : Src) : (storeSync c src s).pending = s.pending := rfl
@[simp] theorem storeSync_lastRead (c : Config) (src : Src) : (storeSync c src s).lastRead = s.lastRead := rfl
@[simp] theorem storeSync_epoch (c : Config) (src : Src) : (storeSync c src s).epoch = s.epoch := rfl
@[simp] theorem storeSync_draws (c : Config) (src : Src) : (storeSync c src s).draws = s.draws := rfl

/-! ### storeBits -/

@[simp] theorem storeBits_cmd (c : Config) (src : Src) (a n : Nat) : (storeBits c src a n s).cmd = s.cmd := rfl
@[simp] theorem storeBits_status (c : Config) (src : Src) (a n : Nat) : (storeBits c src a n s).status = s.status := rfl
@[simp] theorem storeBits_cfg (c : Config) (src : Src) (a n : Nat) : (storeBits c src a n s).cfg = s.cfg := rfl
@[simp] theorem storeBits_xlen (c : Config) (src : Src) (a n : Nat) : (storeBits c src a n s).xlen = s.xlen := rfl
@[simp] theorem storeBits_ylen (c : Config) (src : Src) (a n : Nat) : (storeBits c src a n s).ylen = s.ylen := rfl
@[simp] theorem storeBits_rlen (c : Config) (src : Src) (a n : Nat) : (storeBits c src a n s).rlen = s.rlen := rfl
@[simp] theorem storeBits_chunk (c : Config) (src : Src) (a n : Nat) : (storeBits c src a n s).chunk = s.chunk := rfl
@[simp] theorem storeBits_start (c : Config) (src : Src) (a n : Nat) : (storeBits c src a n s).start = s.start := rfl
@[simp] theorem storeBits_nbits (c : Config) (src : Src) (a n : Nat) : (storeBits c src a n s).nbits = s.nbits := rfl
@[simp] theorem storeBits_sync (c : Config) (src : Src) (a n : Nat) : (storeBits c src a n s).sync = s.sync := rfl
@[simp] theorem storeBits_bitcnt (c : Config) (src : Src) (a n : Nat) :
    (storeBits c src a n s).bitcnt = BitVec.ofNat 32 (bitsProduced (srcLength src s) s.chunk.toNat a n) := rfl
@[simp] theorem storeBits_flen (c : Config) (src : Src) (a n : Nat) : (storeBits c src a n s).flen = s.flen := rfl
@[simp] theorem storeBits_csum (c : Config) (src : Src) (a n : Nat) : (storeBits c src a n s).csum = s.csum := rfl
@[simp] theorem storeBits_stage (c : Config) (src : Src) (a n : Nat) : (storeBits c src a n s).stage = s.stage := rfl
@[simp] theorem storeBits_xmem (c : Config) (src : Src) (a n : Nat) : (storeBits c src a n s).xmem = s.xmem := rfl
@[simp] theorem storeBits_ymem (c : Config) (src : Src) (a n : Nat) : (storeBits c src a n s).ymem = s.ymem := rfl
@[simp] theorem storeBits_hmem (c : Config) (src : Src) (a n : Nat) : (storeBits c src a n s).hmem = s.hmem := rfl
@[simp] theorem storeBits_rmem (c : Config) (src : Src) (a n : Nat) : (storeBits c src a n s).rmem = s.rmem := rfl
@[simp] theorem storeBits_bmem (c : Config) (src : Src) (a n : Nat) :
    (storeBits c src a n s).bmem = (demodLoop (reversal c src s s.chunk.toNat a) s.cfg.initBit s.bmem
      (bitsProduced (srcLength src s) s.chunk.toNat a n)).2 := rfl
@[simp] theorem storeBits_fmem (c : Config) (src : Src) (a n : Nat) : (storeBits c src a n s).fmem = s.fmem := rfl
@[simp] theorem storeBits_pending (c : Config) (src : Src) (a n : Nat) :
    (storeBits c src a n s).pending = s.pending := rfl
@[simp] theorem storeBits_lastRead (c : Config) (src : Src) (a n : Nat) :
    (storeBits c src a n s).lastRead = s.lastRead := rfl
@[simp] theorem storeBits_epoch (c : Config) (src : Src) (a n : Nat) : (storeBits c src a n s).epoch = s.epoch := rfl
@[simp] theorem storeBits_draws (c : Config) (src : Src) (a n : Nat) : (storeBits c src a n s).draws = s.draws := rfl

/-! ### storeFrame -/

@[simp] theorem storeFrame_cmd (c : Config) : (storeFrame c s).cmd = s.cmd := rfl
@[simp] theorem storeFrame_status (c : Config) : (storeFrame c s).status = s.status := rfl
@[simp] theorem storeFrame_cfg (c : Config) : (storeFrame c s).cfg = s.cfg := rfl
@[simp] theorem storeFrame_xlen (c : Config) : (storeFrame c s).xlen = s.xlen := rfl
@[simp] theorem storeFrame_ylen (c : Config) : (storeFrame c s).ylen = s.ylen := rfl
@[simp] theorem storeFrame_rlen (c : Config) : (storeFrame c s).rlen = s.rlen := rfl
@[simp] theorem storeFrame_chunk (c : Config) : (storeFrame c s).chunk = s.chunk := rfl
@[simp] theorem storeFrame_start (c : Config) : (storeFrame c s).start = s.start := rfl
@[simp] theorem storeFrame_nbits (c : Config) : (storeFrame c s).nbits = s.nbits := rfl
@[simp] theorem storeFrame_sync (c : Config) : (storeFrame c s).sync = s.sync := rfl
@[simp] theorem storeFrame_bitcnt (c : Config) : (storeFrame c s).bitcnt = s.bitcnt := rfl
@[simp] theorem storeFrame_flen (c : Config) : (storeFrame c s).flen = BitVec.ofNat 32 (s.bitcnt.toNat / 8) := rfl
@[simp] theorem storeFrame_csum (c : Config) : (storeFrame c s).csum = s.csum := rfl
@[simp] theorem storeFrame_stage (c : Config) : (storeFrame c s).stage = s.stage := rfl
@[simp] theorem storeFrame_xmem (c : Config) : (storeFrame c s).xmem = s.xmem := rfl
@[simp] theorem storeFrame_ymem (c : Config) : (storeFrame c s).ymem = s.ymem := rfl
@[simp] theorem storeFrame_hmem (c : Config) : (storeFrame c s).hmem = s.hmem := rfl
@[simp] theorem storeFrame_rmem (c : Config) : (storeFrame c s).rmem = s.rmem := rfl
@[simp] theorem storeFrame_bmem (c : Config) : (storeFrame c s).bmem = s.bmem := rfl
@[simp] theorem storeFrame_fmem (c : Config) :
    (storeFrame c s).fmem = Memory.storeUpTo (packedByte c s) s.fmem (s.bitcnt.toNat / 8) := rfl
@[simp] theorem storeFrame_pending (c : Config) : (storeFrame c s).pending = s.pending := rfl
@[simp] theorem storeFrame_lastRead (c : Config) : (storeFrame c s).lastRead = s.lastRead := rfl
@[simp] theorem storeFrame_epoch (c : Config) : (storeFrame c s).epoch = s.epoch := rfl
@[simp] theorem storeFrame_draws (c : Config) : (storeFrame c s).draws = s.draws := rfl

/-! ### storeValid -/

@[simp] theorem storeValid_cmd (c : Config) : (storeValid c s).cmd = s.cmd := rfl
@[simp] theorem storeValid_status (c : Config) :
    (storeValid c s).status = { s.status with valid := framePasses c s || s.status.valid } := rfl
@[simp] theorem storeValid_cfg (c : Config) : (storeValid c s).cfg = s.cfg := rfl
@[simp] theorem storeValid_xlen (c : Config) : (storeValid c s).xlen = s.xlen := rfl
@[simp] theorem storeValid_ylen (c : Config) : (storeValid c s).ylen = s.ylen := rfl
@[simp] theorem storeValid_rlen (c : Config) : (storeValid c s).rlen = s.rlen := rfl
@[simp] theorem storeValid_chunk (c : Config) : (storeValid c s).chunk = s.chunk := rfl
@[simp] theorem storeValid_start (c : Config) : (storeValid c s).start = s.start := rfl
@[simp] theorem storeValid_nbits (c : Config) : (storeValid c s).nbits = s.nbits := rfl
@[simp] theorem storeValid_sync (c : Config) : (storeValid c s).sync = s.sync := rfl
@[simp] theorem storeValid_bitcnt (c : Config) : (storeValid c s).bitcnt = s.bitcnt := rfl
@[simp] theorem storeValid_flen (c : Config) : (storeValid c s).flen = s.flen := rfl
@[simp] theorem storeValid_csum (c : Config) : (storeValid c s).csum = s.csum := rfl
@[simp] theorem storeValid_stage (c : Config) : (storeValid c s).stage = s.stage := rfl
@[simp] theorem storeValid_xmem (c : Config) : (storeValid c s).xmem = s.xmem := rfl
@[simp] theorem storeValid_ymem (c : Config) : (storeValid c s).ymem = s.ymem := rfl
@[simp] theorem storeValid_hmem (c : Config) : (storeValid c s).hmem = s.hmem := rfl
@[simp] theorem storeValid_rmem (c : Config) : (storeValid c s).rmem = s.rmem := rfl
@[simp] theorem storeValid_bmem (c : Config) : (storeValid c s).bmem = s.bmem := rfl
@[simp] theorem storeValid_fmem (c : Config) : (storeValid c s).fmem = s.fmem := rfl
@[simp] theorem storeValid_pending (c : Config) : (storeValid c s).pending = s.pending := rfl
@[simp] theorem storeValid_lastRead (c : Config) : (storeValid c s).lastRead = s.lastRead := rfl
@[simp] theorem storeValid_epoch (c : Config) : (storeValid c s).epoch = s.epoch := rfl
@[simp] theorem storeValid_draws (c : Config) : (storeValid c s).draws = s.draws := rfl

/-! ### storeChecksum -/

@[simp] theorem storeChecksum_cmd (c : Config) : (storeChecksum c s).cmd = s.cmd := rfl
@[simp] theorem storeChecksum_status (c : Config) : (storeChecksum c s).status = s.status := rfl
@[simp] theorem storeChecksum_cfg (c : Config) : (storeChecksum c s).cfg = s.cfg := rfl
@[simp] theorem storeChecksum_xlen (c : Config) : (storeChecksum c s).xlen = s.xlen := rfl
@[simp] theorem storeChecksum_ylen (c : Config) : (storeChecksum c s).ylen = s.ylen := rfl
@[simp] theorem storeChecksum_rlen (c : Config) : (storeChecksum c s).rlen = s.rlen := rfl
@[simp] theorem storeChecksum_chunk (c : Config) : (storeChecksum c s).chunk = s.chunk := rfl
@[simp] theorem storeChecksum_start (c : Config) : (storeChecksum c s).start = s.start := rfl
@[simp] theorem storeChecksum_nbits (c : Config) : (storeChecksum c s).nbits = s.nbits := rfl
@[simp] theorem storeChecksum_sync (c : Config) : (storeChecksum c s).sync = s.sync := rfl
@[simp] theorem storeChecksum_bitcnt (c : Config) : (storeChecksum c s).bitcnt = s.bitcnt := rfl
@[simp] theorem storeChecksum_flen (c : Config) : (storeChecksum c s).flen = s.flen := rfl
@[simp] theorem storeChecksum_csum (c : Config) : (storeChecksum c s).csum = BitVec.ofNat 32 (frameChecksum c s) := rfl
@[simp] theorem storeChecksum_stage (c : Config) : (storeChecksum c s).stage = s.stage := rfl
@[simp] theorem storeChecksum_xmem (c : Config) : (storeChecksum c s).xmem = s.xmem := rfl
@[simp] theorem storeChecksum_ymem (c : Config) : (storeChecksum c s).ymem = s.ymem := rfl
@[simp] theorem storeChecksum_hmem (c : Config) : (storeChecksum c s).hmem = s.hmem := rfl
@[simp] theorem storeChecksum_rmem (c : Config) : (storeChecksum c s).rmem = s.rmem := rfl
@[simp] theorem storeChecksum_bmem (c : Config) : (storeChecksum c s).bmem = s.bmem := rfl
@[simp] theorem storeChecksum_fmem (c : Config) : (storeChecksum c s).fmem = s.fmem := rfl
@[simp] theorem storeChecksum_pending (c : Config) : (storeChecksum c s).pending = s.pending := rfl
@[simp] theorem storeChecksum_lastRead (c : Config) : (storeChecksum c s).lastRead = s.lastRead := rfl
@[simp] theorem storeChecksum_epoch (c : Config) : (storeChecksum c s).epoch = s.epoch := rfl
@[simp] theorem storeChecksum_draws (c : Config) : (storeChecksum c s).draws = s.draws := rfl

end

end Sys2Proof.Machine
end

