-- ==== Sys2Proof/Laws/Memory.lean ====
section
/-! SUPPORT. What memory operations do: read after write, the canonical form, and that canonical memories with equal
contents are equal. -/

namespace Sys2Proof.Machine

variable {α : Type}

@[simp] theorem Memory.lookup_nil (i : Nat) : Memory.lookup ([] : Memory α) i = none := rfl

/-- Reading after a write gives the value written at its index, and what was there before at every other. -/
theorem Memory.lookup_store (m : Memory α) (i : Nat) (v : α) (j : Nat) :
    Memory.lookup (Memory.store m i v) j = if j = i then some v else Memory.lookup m j := by
  induction m with
  | nil => simp [Memory.store, Memory.lookup]
  | cons e rest ih =>
    obtain ⟨k, w⟩ := e
    by_cases h1 : i < k
    · simp [Memory.store, Memory.lookup, h1]
    · by_cases h2 : i = k
      · subst h2
        by_cases hj : j = i <;> simp [Memory.store, Memory.lookup, hj]
      · by_cases hj : j = i
        · subst hj
          simp [Memory.store, Memory.lookup, h1, h2, ih]
        · simp [Memory.store, Memory.lookup, h1, h2, ih, hj]

theorem Memory.mem_store (m : Memory α) (i : Nat) (v : α) (e : Nat × α) (h : e ∈ Memory.store m i v) :
    e = (i, v) ∨ e ∈ m := by
  induction m with
  | nil => simpa [Memory.store] using h
  | cons a rest ih =>
    obtain ⟨k, w⟩ := a
    simp only [Memory.store] at h
    split_ifs at h with h1 h2
    · simpa using h
    · rcases List.mem_cons.1 h with h | h
      · exact .inl h
      · exact .inr (List.mem_cons_of_mem _ h)
    · rcases List.mem_cons.1 h with h | h
      · exact .inr (h ▸ List.mem_cons_self)
      · exact (ih h).imp_right (List.mem_cons_of_mem _)

/-- A write keeps the canonical form. -/
theorem Memory.store_wf (m : Memory α) (h : Memory.wf m) (i : Nat) (v : α) : Memory.wf (Memory.store m i v) := by
  induction m with
  | nil => simp [Memory.store, Memory.wf]
  | cons a rest ih =>
    obtain ⟨k, w⟩ := a
    obtain ⟨hk, hr⟩ := List.pairwise_cons.1 h
    simp only [Memory.store]
    split_ifs with h1 h2
    · refine List.pairwise_cons.2 ⟨fun e he => ?_, h⟩
      rcases List.mem_cons.1 he with rfl | he
      · exact h1
      · exact lt_trans h1 (hk e he)
    · subst h2
      exact List.pairwise_cons.2 ⟨fun e he => hk e he, hr⟩
    · refine List.pairwise_cons.2 ⟨fun e he => ?_, ih hr⟩
      rcases Memory.mem_store rest i v e he with rfl | he
      · show k < i; omega
      · exact hk e he

/-- A write inside the capacity keeps every index inside it. -/
theorem Memory.store_within {cap : Nat} (m : Memory α) (h : Memory.within cap m) {i : Nat} (hi : i < cap) (v : α) :
    Memory.within cap (Memory.store m i v) := fun e he =>
  (Memory.mem_store m i v e he).elim (fun he => he ▸ hi) (h e)

/-- A run of writes: the first `n` elements are the values written, the others are as before. -/
theorem Memory.lookup_storeUpTo (f : Nat → α) (m : Memory α) (n j : Nat) :
    Memory.lookup (Memory.storeUpTo f m n) j = if j < n then some (f j) else Memory.lookup m j := by
  induction n with
  | zero => simp [Memory.storeUpTo]
  | succ n ih =>
    rw [Memory.storeUpTo, Memory.lookup_store, ih]
    by_cases h : j = n
    · subst h; simp
    · by_cases h' : j < n
      · simp [h, h', Nat.lt_succ_of_lt h']
      · simp [h, h', show ¬ j < n + 1 by omega]

theorem Memory.storeUpTo_wf (f : Nat → α) (m : Memory α) (h : Memory.wf m) (n : Nat) :
    Memory.wf (Memory.storeUpTo f m n) := by
  induction n with
  | zero => exact h
  | succ n ih => exact Memory.store_wf _ ih _ _

theorem Memory.storeUpTo_within {cap : Nat} (f : Nat → α) (m : Memory α) (h : Memory.within cap m) (n : Nat)
    (hn : n ≤ cap) : Memory.within cap (Memory.storeUpTo f m n) := by
  induction n with
  | zero => exact h
  | succ n ih => exact Memory.store_within _ (ih (by omega)) hn _

theorem Memory.lookup_none_of_lt (m : Memory α) (k : Nat) (h : ∀ e ∈ m, k < e.1) : Memory.lookup m k = none := by
  induction m with
  | nil => rfl
  | cons a rest ih =>
    obtain ⟨j, w⟩ := a
    have : k < j := h (j, w) List.mem_cons_self
    simp only [Memory.lookup, if_neg (show ¬ k = j by omega)]
    exact ih fun e he => h e (List.mem_cons_of_mem _ he)

/-- Two memories in canonical form with the same contents are the same list. -/
theorem Memory.ext_lookup (m m' : Memory α) (h : Memory.wf m) (h' : Memory.wf m')
    (he : ∀ i, Memory.lookup m i = Memory.lookup m' i) : m = m' := by
  induction m generalizing m' with
  | nil =>
    cases m' with
    | nil => rfl
    | cons a rest =>
      have := he a.1
      simp [Memory.lookup] at this
  | cons a rest ih =>
    obtain ⟨k, w⟩ := a
    obtain ⟨hk, hr⟩ := List.pairwise_cons.1 h
    cases m' with
    | nil =>
      have := he k
      simp [Memory.lookup] at this
    | cons b rest' =>
      obtain ⟨k', w'⟩ := b
      obtain ⟨hk', hr'⟩ := List.pairwise_cons.1 h'
      have e1 := he k
      have e2 := he k'
      have hkk : k = k' := by
        rcases Nat.lt_trichotomy k k' with hlt | heq | hgt
        · have : Memory.lookup ((k', w') :: rest') k = none :=
            Memory.lookup_none_of_lt _ _ fun e he => by
              rcases List.mem_cons.1 he with rfl | he
              · exact hlt
              · exact lt_trans hlt (hk' e he)
          rw [this] at e1; simp [Memory.lookup] at e1
        · exact heq
        · have : Memory.lookup ((k, w) :: rest) k' = none :=
            Memory.lookup_none_of_lt _ _ fun e he => by
              rcases List.mem_cons.1 he with rfl | he
              · exact hgt
              · exact lt_trans hgt (hk e he)
          rw [this] at e2; simp [Memory.lookup] at e2
      subst hkk
      have hw : w = w' := by simpa [Memory.lookup] using e1
      subst hw
      congr 1
      refine ih rest' hr hr' fun i => ?_
      by_cases hi : i = k
      · subst hi
        rw [Memory.lookup_none_of_lt rest i hk, Memory.lookup_none_of_lt rest' i hk']
      · have := he i
        simpa [Memory.lookup, hi] using this

end Sys2Proof.Machine
end

