-- ==== Sys2Proof/Laws/Sums.lean ====
section
/-! SUPPORT. The model's recursive sums and scans are the spec's loops (00_scope.md R9, R75, R79, R85), and they depend
on their terms only. -/

namespace Sys2Proof.Machine

/-- `sumFrom` is the loop of R9. -/
theorem sumFrom_eq_loopSum (num : Numerics) (cond : Nat → Bool) (term : Nat → Sample) (n : Nat) :
    sumFrom num 0 cond term n = loopSum num n cond term := by
  induction n with
  | zero => rfl
  | succ n ih => simp [sumFrom, ih, loopSum, List.range_succ, List.foldl_append]

theorem dot_eq_loopSum (num : Numerics) (u v : Nat → Sample) (n : Nat) :
    dot num u v n = loopSum num n (fun _ => true) (fun i => num.mul (u i) (v i)) :=
  sumFrom_eq_loopSum ..

/-- A sum depends only on the conditions and on the terms it takes. -/
theorem loopSum_congr (num : Numerics) (n : Nat) {cond cond' : Nat → Bool} {term term' : Nat → Sample}
    (hc : ∀ k, k < n → cond k = cond' k) (ht : ∀ k, k < n → cond k = true → term k = term' k) :
    loopSum num n cond term = loopSum num n cond' term' := by
  induction n with
  | zero => rfl
  | succ n ih =>
    have e := ih (fun k hk => hc k (by omega)) (fun k hk => ht k (by omega))
    have hn := hc n (by omega)
    simp only [loopSum, List.range_succ, List.foldl_append] at e ⊢
    rw [e]
    by_cases h : cond n = true
    · simp [← hn, h, ht n (by omega) h]
    · simp [← hn, h]

/-- `peakLag` is the scan of R75. -/
theorem peakLag_eq_loopPeak (num : Numerics) (corr : Nat → Sample) (n : Nat) :
    peakLag num corr n = loopPeak num corr n := by
  induction n with
  | zero => rfl
  | succ n ih => simp [peakLag, ih, loopPeak, List.range_succ, List.foldl_append]

/-- The peak is one of the lags searched. -/
theorem peakLag_le (num : Numerics) (corr : Nat → Sample) (n : Nat) : peakLag num corr n ≤ n := by
  induction n with
  | zero => exact le_rfl
  | succ n ih => simp only [peakLag]; split <;> omega

/-- The peak depends only on the correlations of the lags searched. -/
theorem peakLag_congr (num : Numerics) {corr corr' : Nat → Sample} (n : Nat) (h : ∀ j, j ≤ n → corr j = corr' j) :
    peakLag num corr n = peakLag num corr' n := by
  induction n with
  | zero => rfl
  | succ n ih =>
    have e := ih fun j hj => h j (by omega)
    have hb := peakLag_le num corr' n
    simp only [peakLag, e, h (n + 1) le_rfl, h (peakLag num corr' n) (by omega)]

/-- The running bit after `n` pairs is the starting bit exclusive-or the parity of the reversals (R82). -/
theorem demodLoop_fst (rev : Nat → Bool) (init : Bool) (m : Memory Bool) (n : Nat) :
    (demodLoop rev init m n).1 = xor init (((List.range n).countP fun j => rev (j + 1)) % 2 == 1) := by
  induction n with
  | zero => simp [demodLoop]
  | succ n ih =>
    simp only [demodLoop, ih, List.range_succ, List.countP_append, List.countP_cons, List.countP_nil]
    rcases Nat.mod_two_eq_zero_or_one ((List.range n).countP fun j => rev (j + 1)) with h | h <;>
      cases hr : rev (n + 1) <;> cases init <;> simp [Nat.add_mod, h]

/-- The running bit does not depend on what BMEM held. -/
theorem demodLoop_fst_mem (rev : Nat → Bool) (init : Bool) (m m' : Memory Bool) (n : Nat) :
    (demodLoop rev init m n).1 = (demodLoop rev init m' n).1 := by
  rw [demodLoop_fst, demodLoop_fst]

/-- BMEM after `n` pairs: element `j < n` is the running bit after pair `j + 1`, the others are as before (R79). -/
theorem lookup_demodLoop (rev : Nat → Bool) (init : Bool) (m : Memory Bool) (n j : Nat) :
    Memory.lookup (demodLoop rev init m n).2 j =
      if j < n then some (demodLoop rev init m (j + 1)).1 else Memory.lookup m j := by
  induction n with
  | zero => simp [demodLoop]
  | succ n ih =>
    have e : (demodLoop rev init m (n + 1)).2 =
        Memory.store (demodLoop rev init m n).2 n (demodLoop rev init m (n + 1)).1 := rfl
    rw [e]
    by_cases h : j = n
    · subst h
      simp [Memory.lookup_store]
    · by_cases h' : j < n
      · simp [Memory.lookup_store, ih, h, h', Nat.lt_succ_of_lt h']
      · simp [Memory.lookup_store, ih, h, h', show ¬ j < n + 1 by omega]

theorem demodLoop_wf (rev : Nat → Bool) (init : Bool) (m : Memory Bool) (h : Memory.wf m) (n : Nat) :
    Memory.wf (demodLoop rev init m n).2 := by
  induction n with
  | zero => exact h
  | succ n ih => exact Memory.store_wf _ ih _ _

theorem demodLoop_within {cap : Nat} (rev : Nat → Bool) (init : Bool) (m : Memory Bool) (h : Memory.within cap m)
    (n : Nat) (hn : n ≤ cap) : Memory.within cap (demodLoop rev init m n).2 := by
  induction n with
  | zero => exact h
  | succ n ih => exact Memory.store_within _ (ih (by omega)) hn _

/-- Bits beyond the last produced one are never needed (R80). -/
theorem bitsProduced_le (n cs start nb : Nat) : bitsProduced n cs start nb ≤ nb := by
  simp only [bitsProduced]; omega

/-- Eight bits, the earliest most significant (R85). -/
theorem packBits_eight (b : Nat → Bool) :
    packBits b 8 = (b 0).toNat * 128 + (b 1).toNat * 64 + (b 2).toNat * 32 + (b 3).toNat * 16 + (b 4).toNat * 8
      + (b 5).toNat * 4 + (b 6).toNat * 2 + (b 7).toNat := by
  simp only [packBits]; omega

theorem packBits_eight_lt (b : Nat → Bool) : packBits b 8 < 256 := by
  have h := fun i => Bool.toNat_lt (b i)
  have := h 0; have := h 1; have := h 2; have := h 3; have := h 4; have := h 5; have := h 6; have := h 7
  rw [packBits_eight]; omega

end Sys2Proof.Machine
end

