-- ==== Sys2Proof/Laws/Stages.lean ====
section
/-! SUPPORT. One spec lemma per shared operation and per stage: what it answers, and when. Reading an element after the
updates of Laws/State.lean. -/

namespace Sys2Proof.Machine

variable (c : Config) (s : State)

/-! ### Reads -/

/-- A read depends only on its own memory and on how many resets there have been. -/
theorem readSample_congr {s t : State} {sp : SampleSpace} (hm : sampleMemory s sp = sampleMemory t sp)
    (he : s.epoch = t.epoch) (i : Nat) : readSample c s sp i = readSample c t sp i := by
  simp only [readSample, hm, he]

theorem readBit_congr {s t : State} (hm : s.bmem = t.bmem) (he : s.epoch = t.epoch) (i : Nat) :
    readBit c s i = readBit c t i := by
  simp only [readBit, hm, he]

theorem readByte_congr {s t : State} (hm : s.fmem = t.fmem) (he : s.epoch = t.epoch) (i : Nat) :
    readByte c s i = readByte c t i := by
  simp only [readByte, hm, he]

/-- Two states with the same XMEM, YMEM, HMEM, RMEM and resets read the same samples. -/
theorem readSample_congr_all {s t : State} (hx : s.xmem = t.xmem) (hy : s.ymem = t.ymem) (hh : s.hmem = t.hmem)
    (hr : s.rmem = t.rmem) (he : s.epoch = t.epoch) : readSample c s = readSample c t := by
  funext sp i
  refine readSample_congr c ?_ he i
  cases sp <;> assumption

@[simp] theorem readSample_enterStage (st : Stage) : readSample c (enterStage st s) = readSample c s :=
  readSample_congr_all c rfl rfl rfl rfl rfl

@[simp] theorem readSample_complete : readSample c (complete s) = readSample c s :=
  readSample_congr_all c rfl rfl rfl rfl rfl

@[simp] theorem readSample_raiseFault (code : FaultCode) : readSample c (raiseFault code s) = readSample c s :=
  readSample_congr_all c rfl rfl rfl rfl rfl

@[simp] theorem readSample_clearValid : readSample c (clearValid s) = readSample c s :=
  readSample_congr_all c rfl rfl rfl rfl rfl

@[simp] theorem readSample_storeSync (src : Src) : readSample c (storeSync c src s) = readSample c s :=
  readSample_congr_all c rfl rfl rfl rfl rfl

@[simp] theorem readSample_storeBits (src : Src) (a n : Nat) : readSample c (storeBits c src a n s) = readSample c s :=
  readSample_congr_all c rfl rfl rfl rfl rfl

@[simp] theorem readSample_storeFrame : readSample c (storeFrame c s) = readSample c s :=
  readSample_congr_all c rfl rfl rfl rfl rfl

@[simp] theorem readSample_storeValid : readSample c (storeValid c s) = readSample c s :=
  readSample_congr_all c rfl rfl rfl rfl rfl

@[simp] theorem readSample_storeChecksum : readSample c (storeChecksum c s) = readSample c s :=
  readSample_congr_all c rfl rfl rfl rfl rfl

@[simp] theorem readBit_enterStage (st : Stage) : readBit c (enterStage st s) = readBit c s := rfl

@[simp] theorem readBit_complete : readBit c (complete s) = readBit c s := rfl

@[simp] theorem readBit_raiseFault (code : FaultCode) : readBit c (raiseFault code s) = readBit c s := rfl

@[simp] theorem readBit_clearValid : readBit c (clearValid s) = readBit c s := rfl

@[simp] theorem readBit_storeFiltered : readBit c (storeFiltered c s) = readBit c s := rfl

@[simp] theorem readBit_storeSync (src : Src) : readBit c (storeSync c src s) = readBit c s := rfl

@[simp] theorem readBit_storeFrame : readBit c (storeFrame c s) = readBit c s := rfl

@[simp] theorem readBit_storeValid : readBit c (storeValid c s) = readBit c s := rfl

@[simp] theorem readBit_storeChecksum : readBit c (storeChecksum c s) = readBit c s := rfl

@[simp] theorem readByte_enterStage (st : Stage) : readByte c (enterStage st s) = readByte c s := rfl

@[simp] theorem readByte_complete : readByte c (complete s) = readByte c s := rfl

@[simp] theorem readByte_raiseFault (code : FaultCode) : readByte c (raiseFault code s) = readByte c s := rfl

@[simp] theorem readByte_clearValid : readByte c (clearValid s) = readByte c s := rfl

@[simp] theorem readByte_storeFiltered : readByte c (storeFiltered c s) = readByte c s := rfl

@[simp] theorem readByte_storeSync (src : Src) : readByte c (storeSync c src s) = readByte c s := rfl

@[simp] theorem readByte_storeBits (src : Src) (a n : Nat) : readByte c (storeBits c src a n s) = readByte c s := rfl

@[simp] theorem readByte_storeValid : readByte c (storeValid c s) = readByte c s := rfl

@[simp] theorem readByte_storeChecksum : readByte c (storeChecksum c s) = readByte c s := rfl

/-- After the filter stage YMEM holds the outputs below XLEN and what it held above; no other memory changed (R69). -/
theorem readSample_storeFiltered (sp : SampleSpace) (i : Nat) :
    readSample c (storeFiltered c s) sp i =
      if sp = .ymem ∧ i < s.xlen.toNat then filterSample c s s.xlen.toNat i else readSample c s sp i := by
  cases sp
  case ymem =>
    simp only [readSample, sampleMemory, storeFiltered_ymem, Memory.lookup_storeUpTo, storeFiltered_epoch]
    by_cases h : i < s.xlen.toNat <;> simp [h]
  all_goals simp [readSample, sampleMemory]

/-- After the demodulation stage BMEM holds the running bits below BITCNT and what it held above (R79). -/
theorem readBit_storeBits (src : Src) (a n j : Nat) :
    readBit c (storeBits c src a n s) j =
      if j < bitsProduced (srcLength src s) s.chunk.toNat a n then
        (demodLoop (reversal c src s s.chunk.toNat a) s.cfg.initBit s.bmem (j + 1)).1
      else readBit c s j := by
  simp only [readBit, storeBits_bmem, lookup_demodLoop, storeBits_epoch]
  by_cases h : j < bitsProduced (srcLength src s) s.chunk.toNat a n <;> simp [h]

/-- After the pack stage FMEM holds the packed bytes below FLEN and what it held above (R85). -/
theorem readByte_storeFrame (q : Nat) :
    readByte c (storeFrame c s) q = if q < s.bitcnt.toNat / 8 then packedByte c s q else readByte c s q := by
  simp only [readByte, storeFrame_fmem, Memory.lookup_storeUpTo, storeFrame_epoch]
  by_cases h : q < s.bitcnt.toNat / 8 <;> simp [h]

/-! ### Values -/

/-- `y_i` is element `i + 63` of the full convolution (R70). -/
theorem filterSample_eq (i : Nat) : filterSample c s s.xlen.toNat i = fullConvolution c s (i + 63) :=
  sumFrom_eq_loopSum ..

theorem correlation_eq (src : Src) (j : Nat) : correlation c src s j = lagSum c s (srcSpace src) j :=
  dot_eq_loopSum ..

theorem chunkProduct_eq (src : Src) (start m : Nat) :
    chunkProduct c src s s.chunk.toNat start m = pairSum c s (srcSpace src) start m :=
  dot_eq_loopSum ..

/-- The running bit after `m` pairs (R82). -/
theorem runningBit_eq (src : Src) (start m : Nat) (mem : Memory Bool) :
    (demodLoop (reversal c src s s.chunk.toNat start) s.cfg.initBit mem m).1 = bitAfter c s (srcSpace src) start m := by
  simp only [demodLoop_fst, bitAfter, reversals, reversal, chunkProduct_eq]

theorem packedByte_toNat (q : Nat) : (packedByte c s q).toNat = byteOfBits (readBit c s) q := by
  have h := packBits_eight_lt fun t => readBit c s (8 * q + t)
  simp only [packedByte, BitVec.toNat_ofNat, Nat.mod_eq_of_lt (show _ < 2 ^ 8 from h)]
  rw [packBits_eight]; simp [byteOfBits]

theorem framePasses_iff : framePasses c s = true ↔ FrameValid c s := by
  rw [framePasses, Bool.and_eq_true, decide_eq_true_eq, decide_eq_true_eq]
  rfl

theorem frameChecksum_lt : frameChecksum c s < 255 := Nat.mod_lt _ (by omega)

/-- SYNC as a number: the peak and the reference length fit in the waveform, so nothing wraps (R21, R75). -/
theorem syncOffset_bounds (src : Src) (h : s.rlen.toNat ≤ srcLength src s) :
    s.rlen.toNat ≤ syncOffset c src s ∧ syncOffset c src s ≤ srcLength src s := by
  have := peakLag_le c.num (correlation c src s) (srcLength src s - s.rlen.toNat)
  simp only [syncOffset]; omega

theorem srcLength_lt (src : Src) : srcLength src s < 2 ^ 32 := by
  cases src
  · exact s.xlen.isLt
  · exact s.ylen.isLt

theorem storeSync_toNat (src : Src) (h : s.rlen.toNat ≤ srcLength src s) :
    (BitVec.ofNat 32 (syncOffset c src s)).toNat = syncOffset c src s := by
  have := (syncOffset_bounds c s src h).2
  have := srcLength_lt s src
  rw [BitVec.toNat_ofNat, Nat.mod_eq_of_lt]; omega

theorem bitsProduced_toNat (n cs start nb : Nat) (h : nb < 2 ^ 32) :
    (BitVec.ofNat 32 (bitsProduced n cs start nb)).toNat = bitsProduced n cs start nb := by
  have := bitsProduced_le n cs start nb
  rw [BitVec.toNat_ofNat, Nat.mod_eq_of_lt]; omega

theorem bytesPacked_toNat : (BitVec.ofNat 32 (s.bitcnt.toNat / 8)).toNat = s.bitcnt.toNat / 8 := by
  have := s.bitcnt.isLt
  rw [BitVec.toNat_ofNat, Nat.mod_eq_of_lt]; omega

/-- The outputs depend on the registers and samples they read, not on STAGE (R37). -/
@[simp] theorem lagSum_enterStage (st : Stage) (sp : SampleSpace) (j : Nat) :
    lagSum c (enterStage st s) sp j = lagSum c s sp j := by simp [lagSum]

theorem bitAfter_congr {s t : State} (hc : s.chunk = t.chunk) (hg : s.cfg = t.cfg)
    (hr : readSample c s = readSample c t) (sp : SampleSpace) (start m : Nat) :
    bitAfter c s sp start m = bitAfter c t sp start m := by
  simp only [bitAfter, reversals, pairSum, hc, hg, hr]

@[simp] theorem fullConvolution_enterStage (st : Stage) (n : Nat) :
    fullConvolution c (enterStage st s) n = fullConvolution c s n := by
  simp only [fullConvolution, readSample_enterStage, enterStage_xlen]
  rfl

/-! ### Checks and stages -/

theorem badLength_iff (n : Nat) : badLength c n = true ↔ n = 0 ∨ c.nMax < n := by simp [badLength]

theorem badReference_iff (n l : Nat) : badReference c n l = true ↔ l = 0 ∨ c.rMax < l ∨ n < l := by
  simp [badReference, or_assoc]

@[simp] theorem srcLength_enterStage (src : Src) (st : Stage) : srcLength src (enterStage st s) = srcLength src s := by
  cases src <;> rfl

@[simp] theorem srcLength_clearValid (src : Src) : srcLength src (clearValid s) = srcLength src s := by
  cases src <;> rfl

/-- Everything the filter stage can do (R69). -/
theorem filterStage_cases :
    (s.xlen.toNat = 0 ∨ c.nMax < s.xlen.toNat) ∧ filterStage c s = .faulted .badLen (enterStage .filter s) ∨
    (1 ≤ s.xlen.toNat ∧ s.xlen.toNat ≤ c.nMax) ∧ filterStage c s = .done (storeFiltered c (enterStage .filter s)) := by
  have h := badLength_iff c s.xlen.toNat
  by_cases hb : badLength c s.xlen.toNat = true
  · exact .inl ⟨h.1 hb, by simp [filterStage, hb]⟩
  · refine .inr ⟨?_, by simp [filterStage, hb]⟩
    rw [h] at hb; omega

/-- Everything the sync stage can do (R75). -/
theorem syncStage_cases (src : Src) :
    (srcLength src s = 0 ∨ c.nMax < srcLength src s) ∧ syncStage c src s = .faulted .badLen (enterStage .sync s) ∨
    (1 ≤ srcLength src s ∧ srcLength src s ≤ c.nMax) ∧
      ((s.rlen.toNat = 0 ∨ c.rMax < s.rlen.toNat ∨ srcLength src s < s.rlen.toNat) ∧
        syncStage c src s = .faulted .badRef (enterStage .sync s) ∨
      (1 ≤ s.rlen.toNat ∧ s.rlen.toNat ≤ c.rMax ∧ s.rlen.toNat ≤ srcLength src s) ∧
        syncStage c src s = .done (storeSync c src (enterStage .sync s))) := by
  have h := badLength_iff c (srcLength src s)
  have h' := badReference_iff c (srcLength src s) s.rlen.toNat
  by_cases hb : badLength c (srcLength src s) = true
  · exact .inl ⟨h.1 hb, by simp [syncStage, hb]⟩
  · have hb' := hb
    rw [h] at hb'
    refine .inr ⟨by omega, ?_⟩
    by_cases hr : badReference c (srcLength src s) s.rlen.toNat = true
    · exact .inl ⟨h'.1 hr, by simp [syncStage, hb, hr]⟩
    · refine .inr ⟨?_, by simp [syncStage, hb, hr]⟩
      rw [h'] at hr; omega

/-- Everything the demodulation stage can do (R79). -/
theorem demodStage_cases (src : Src) (a n : Nat) :
    s.cfg.mode = .absolutePhase ∧ demodStage c src a n s = .faulted .badMode (enterStage .demod s) ∨
    s.cfg.mode = .differential ∧
      ((srcLength src s = 0 ∨ c.nMax < srcLength src s) ∧
        demodStage c src a n s = .faulted .badLen (enterStage .demod s) ∨
      (1 ≤ srcLength src s ∧ srcLength src s ≤ c.nMax) ∧
        (s.chunk.toNat < 2 ∧ demodStage c src a n s = .faulted .badChunk (enterStage .demod s) ∨
        2 ≤ s.chunk.toNat ∧
          (c.bMax < n ∧ demodStage c src a n s = .faulted .badNbits (enterStage .demod s) ∨
          n ≤ c.bMax ∧ demodStage c src a n s = .done (storeBits c src a n (enterStage .demod s))))) := by
  have h := badLength_iff c (srcLength src s)
  cases hm : s.cfg.mode with
  | absolutePhase => exact .inl ⟨rfl, by simp [demodStage, hm]⟩
  | differential =>
    refine .inr ⟨rfl, ?_⟩
    by_cases hb : badLength c (srcLength src s) = true
    · exact .inl ⟨h.1 hb, by simp [demodStage, hm, hb]⟩
    · have hb' := hb
      rw [h] at hb'
      refine .inr ⟨by omega, ?_⟩
      by_cases hc : s.chunk.toNat < 2
      · exact .inl ⟨hc, by simp [demodStage, hm, hb, hc]⟩
      · refine .inr ⟨by omega, ?_⟩
        by_cases hn : c.bMax < n
        · exact .inl ⟨hn, by simp [demodStage, hm, hb, hc, hn]⟩
        · exact .inr ⟨by omega, by simp [demodStage, hm, hb, hc, hn]⟩

/-- Everything the pack stage can do (R85). -/
theorem packStage_cases :
    c.bMax < s.bitcnt.toNat ∧ packStage c s = .faulted .badCount (enterStage .pack s) ∨
    s.bitcnt.toNat ≤ c.bMax ∧ packStage c s = .done (storeFrame c (enterStage .pack s)) := by
  by_cases h : c.bMax < s.bitcnt.toNat
  · exact .inl ⟨h, by simp [packStage, h]⟩
  · exact .inr ⟨by omega, by simp [packStage, h]⟩

/-- Everything the check stage can do (R88). -/
theorem checkStage_cases :
    c.fMax < s.flen.toNat ∧ checkStage c s = .faulted .badCount (enterStage .check s) ∨
    s.flen.toNat ≤ c.fMax ∧ checkStage c s = .done (storeValid c (enterStage .check s)) := by
  by_cases h : c.fMax < s.flen.toNat
  · exact .inl ⟨h, by simp [checkStage, h]⟩
  · exact .inr ⟨by omega, by simp [checkStage, h]⟩

/-- Everything checksum generation can do (R89). -/
theorem csgenStage_cases :
    c.fMax < s.flen.toNat ∧ csgenStage c s = .faulted .badCount (enterStage .csgen s) ∨
    s.flen.toNat ≤ c.fMax ∧
      (s.flen.toNat < 3 ∧ csgenStage c s = .faulted .shortFrame (enterStage .csgen s) ∨
      3 ≤ s.flen.toNat ∧ csgenStage c s = .done (storeChecksum c (enterStage .csgen s))) := by
  by_cases h : c.fMax < s.flen.toNat
  · exact .inl ⟨h, by simp [csgenStage, h]⟩
  · refine .inr ⟨by omega, ?_⟩
    by_cases h' : s.flen.toNat < 3
    · exact .inl ⟨h', by simp [csgenStage, h, h']⟩
    · exact .inr ⟨by omega, by simp [csgenStage, h, h']⟩

@[simp] theorem Run.andThen_done (s : State) (f : State → Run) : (Run.done s).andThen f = f s := rfl

@[simp] theorem Run.andThen_faulted (code : FaultCode) (s : State) (f : State → Run) :
    (Run.faulted code s).andThen f = .faulted code s := rfl

@[simp] theorem Run.finish_done (s : State) : (Run.done s).finish = .next (complete s) := rfl

@[simp] theorem Run.finish_faulted (code : FaultCode) (s : State) :
    (Run.faulted code s).finish = .next (raiseFault code s) := rfl

/-- Whatever the stages did, the operation ends in a next state (R118). -/
theorem Run.finish_next (r : Run) : ∃ t, r.finish = .next t := by
  cases r with
  | done s => exact ⟨_, rfl⟩
  | faulted code s => exact ⟨_, rfl⟩

end Sys2Proof.Machine
end

