-- ==== Sys2Proof/Laws/Pipeline.lean ====
section
/-! SUPPORT. Everything an operation can do, one lemma each: BANDPASS to CSGEN at the level of `exec`, and the five
stages of DECODE (45_decode_pipeline.md R91). -/

namespace Sys2Proof.Machine

variable (c : Config) (s : State)

/-! ### The states between the stages of DECODE -/

/-- after stage 1 -/
def afterFilter : State := storeFiltered c (enterStage .filter s)

/-- after stage 2 -/
def afterSync : State := storeSync c .y (enterStage .sync (afterFilter c s))

/-- after stage 3 -/
def afterDemod : State := storeBits c .y (afterSync c s).sync.toNat payloadBits (enterStage .demod (afterSync c s))

/-- after stage 4 -/
def afterPack : State := storeFrame c (enterStage .pack (afterDemod c s))

/-- after stage 5 -/
def afterCheck : State := storeValid c (enterStage .check (afterPack c s))

theorem srcLength_afterFilter : srcLength .y (afterFilter c s) = s.xlen.toNat := rfl

/-- Everything the five stages can do (R91): stage 2 cannot raise BAD_LEN, stage 3 neither BAD_LEN nor BAD_NBITS, stages 4
and 5 nothing. -/
theorem decodeStages_cases :
    (s.xlen.toNat = 0 ∨ c.nMax < s.xlen.toNat) ∧ decodeStages c s = .faulted .badLen (enterStage .filter s) ∨
    (1 ≤ s.xlen.toNat ∧ s.xlen.toNat ≤ c.nMax) ∧
      ((s.rlen.toNat = 0 ∨ c.rMax < s.rlen.toNat ∨ s.xlen.toNat < s.rlen.toNat) ∧
        decodeStages c s = .faulted .badRef (enterStage .sync (afterFilter c s)) ∨
      (1 ≤ s.rlen.toNat ∧ s.rlen.toNat ≤ c.rMax ∧ s.rlen.toNat ≤ s.xlen.toNat) ∧
        (s.cfg.mode = .absolutePhase ∧
          decodeStages c s = .faulted .badMode (enterStage .demod (afterSync c s)) ∨
        s.cfg.mode = .differential ∧
          (s.chunk.toNat < 2 ∧ decodeStages c s = .faulted .badChunk (enterStage .demod (afterSync c s)) ∨
          2 ≤ s.chunk.toNat ∧ decodeStages c s = .done (afterCheck c s)))) := by
  rcases filterStage_cases c s with ⟨h1, e1⟩ | ⟨h1, e1⟩
  · exact .inl ⟨h1, by simp [decodeStages, e1]⟩
  refine .inr ⟨h1, ?_⟩
  have hd : decodeStages c s = (syncStage c .y (afterFilter c s)).andThen fun s2 =>
      (demodStage c .y s2.sync.toNat payloadBits s2).andThen fun s3 =>
      (packStage c s3).andThen fun s4 => checkStage c s4 := by simp [decodeStages, e1, afterFilter]
  have hl := srcLength_afterFilter c s
  rcases syncStage_cases c (afterFilter c s) .y with ⟨h2, _⟩ | ⟨_, ⟨h2, e2⟩ | ⟨h2, e2⟩⟩
  · rw [hl] at h2; omega
  · exact .inl ⟨by rw [hl] at h2; exact h2, by rw [hd, e2]; rfl⟩
  refine .inr ⟨by rw [hl] at h2; exact h2, ?_⟩
  have hd' : decodeStages c s = (demodStage c .y (afterSync c s).sync.toNat payloadBits (afterSync c s)).andThen fun s3 =>
      (packStage c s3).andThen fun s4 => checkStage c s4 := by rw [hd, e2]; rfl
  have hl' : srcLength .y (afterSync c s) = s.xlen.toNat := rfl
  rcases demodStage_cases c (afterSync c s) .y (afterSync c s).sync.toNat payloadBits with
    ⟨h3, e3⟩ | ⟨h3, ⟨h4, _⟩ | ⟨_, ⟨h5, e3⟩ | ⟨h5, ⟨h6, _⟩ | ⟨_, e3⟩⟩⟩⟩
  · exact .inl ⟨h3, by rw [hd', e3]; rfl⟩
  · rw [hl'] at h4; omega
  · exact .inr ⟨h3, .inl ⟨h5, by rw [hd', e3]; rfl⟩⟩
  · have := c.bMax_ge; simp only [payloadBits] at h6; omega
  refine .inr ⟨h3, .inr ⟨h5, ?_⟩⟩
  rw [hd', e3, Run.andThen_done]
  change (packStage c (afterDemod c s)).andThen _ = _
  have hb : (afterDemod c s).bitcnt.toNat ≤ 32 := by
    have h := bitsProduced_toNat (srcLength .y (enterStage .demod (afterSync c s)))
      (enterStage .demod (afterSync c s)).chunk.toNat (afterSync c s).sync.toNat payloadBits (by decide)
    have h' := bitsProduced_le (srcLength .y (enterStage .demod (afterSync c s)))
      (enterStage .demod (afterSync c s)).chunk.toNat (afterSync c s).sync.toNat payloadBits
    simp only [afterDemod, storeBits_bitcnt, h]
    exact h'
  rcases packStage_cases c (afterDemod c s) with ⟨h7, _⟩ | ⟨_, e4⟩
  · have := c.bMax_ge; omega
  rw [e4, Run.andThen_done]
  change checkStage c (afterPack c s) = _
  have hf : (afterPack c s).flen.toNat ≤ 4 := by
    have h := bytesPacked_toNat (afterDemod c s)
    simp only [afterPack, storeFrame_flen, enterStage_bitcnt, h]; omega
  rcases checkStage_cases c (afterPack c s) with ⟨h8, _⟩ | ⟨_, e5⟩
  · have := c.four_le_fMax; omega
  exact e5

/-! ### `exec`, one equation per operation -/

theorem exec_bandpass : exec .bandpass s = (filterStage Config.hw s).finish := rfl

theorem exec_findSync (src : Src) : exec (.findSync src) s = (syncStage Config.hw src s).finish := rfl

theorem exec_demod (src : Src) :
    exec (.demod src) s = (demodStage Config.hw src s.start.toNat s.nbits.toNat s).finish := rfl

theorem exec_pack : exec .pack s = (packStage Config.hw s).finish := rfl

theorem exec_check : exec .check s = (checkStage Config.hw (clearValid s)).finish := rfl

theorem exec_csgen : exec .csgen s = (csgenStage Config.hw s).finish := rfl

theorem exec_decode : exec .decode s = (decodeStages Config.hw (clearValid s)).finish := rfl

/-- Every operation ends in a next state (R118). -/
theorem exec_next (i : Instr) : ∃ t, exec i s = .next t := by
  cases i <;> exact Run.finish_next _

end Sys2Proof.Machine
end

