-- ==== Sys2Proof/Laws/Congruence.lean ====
section
/-! SUPPORT. What the computed values depend on (30_encoding.md R61), and when storing them changes nothing
(10_state.md R37). -/

namespace Sys2Proof.Machine

variable (c : Config)

/-! ### What each computed value depends on -/

theorem filterSample_congr {s t : State} (hx : s.xmem = t.xmem) (hh : s.hmem = t.hmem) (he : s.epoch = t.epoch) :
    filterSample c s = filterSample c t := by
  funext n i
  simp only [filterSample, coefficient, readSample, sampleMemory, hx, hh, he]

theorem syncOffset_congr {s t : State} (hy : s.ymem = t.ymem) (hr : s.rmem = t.rmem) (hl : s.rlen = t.rlen)
    (hn : s.ylen = t.ylen) (he : s.epoch = t.epoch) : syncOffset c .y s = syncOffset c .y t := by
  have h : correlation c .y s = correlation c .y t := by
    funext j
    simp only [correlation, waveform, reference, srcSpace, readSample, sampleMemory, hy, hr, he, hl]
  simp only [syncOffset, h, srcLength, hn, hl]

theorem reversal_congr {s t : State} (hy : s.ymem = t.ymem) (he : s.epoch = t.epoch) :
    reversal c .y s = reversal c .y t := by
  funext a b m
  simp only [reversal, chunkProduct, waveform, srcSpace, readSample, sampleMemory, hy, he]

theorem packedByte_congr {s t : State} (hb : s.bmem = t.bmem) (he : s.epoch = t.epoch) :
    packedByte c s = packedByte c t := by
  funext q
  simp only [packedByte, readBit, hb, he]

theorem framePasses_congr {s t : State} (hm : s.fmem = t.fmem) (hf : s.flen = t.flen) (he : s.epoch = t.epoch) :
    framePasses c s = framePasses c t := by
  have h : readByte c s = readByte c t := by
    funext q
    simp only [readByte, hm, he]
  unfold framePasses frameChecksum
  rw [h, hf]

/-! ### Storing what is there already -/

theorem Memory.storeUpTo_self {α : Type} (f : Nat → α) (m : Memory α) (h : Memory.wf m) (n : Nat)
    (hm : ∀ j, j < n → Memory.lookup m j = some (f j)) : Memory.storeUpTo f m n = m := by
  apply Memory.ext_lookup _ _ (Memory.storeUpTo_wf f m h n) h
  intro i
  rw [Memory.lookup_storeUpTo]
  split_ifs with hi
  · exact (hm i hi).symm
  · rfl

theorem storeFiltered_self (s : State) (h : Memory.wf s.ymem) (hl : s.ylen = s.xlen)
    (hm : ∀ j, j < s.xlen.toNat → Memory.lookup s.ymem j = some (filterSample c s s.xlen.toNat j)) :
    storeFiltered c s = s := by
  unfold storeFiltered
  rw [Memory.storeUpTo_self _ _ h _ hm]
  cases s; cases hl; rfl

theorem storeBits_self (src : Src) (start nb : Nat) (s : State) (h : Memory.wf s.bmem)
    (hn : s.bitcnt = BitVec.ofNat 32 (bitsProduced (srcLength src s) s.chunk.toNat start nb))
    (hm : ∀ j, j < bitsProduced (srcLength src s) s.chunk.toNat start nb → Memory.lookup s.bmem j =
      some (demodLoop (reversal c src s s.chunk.toNat start) s.cfg.initBit s.bmem (j + 1)).1) :
    storeBits c src start nb s = s := by
  have e : (demodLoop (reversal c src s s.chunk.toNat start) s.cfg.initBit s.bmem
      (bitsProduced (srcLength src s) s.chunk.toNat start nb)).2 = s.bmem := by
    apply Memory.ext_lookup _ _ (demodLoop_wf _ _ _ h _) h
    intro i
    rw [lookup_demodLoop]
    split_ifs with hi
    · exact (hm i hi).symm
    · rfl
  unfold storeBits
  simp only
  rw [e, ← hn]

theorem storeFrame_self (s : State) (h : Memory.wf s.fmem) (hl : s.flen = BitVec.ofNat 32 (s.bitcnt.toNat / 8))
    (hm : ∀ j, j < s.bitcnt.toNat / 8 → Memory.lookup s.fmem j = some (packedByte c s j)) : storeFrame c s = s := by
  unfold storeFrame
  simp only
  rw [Memory.storeUpTo_self _ _ h _ hm, ← hl]

end Sys2Proof.Machine
end

