-- ==== Sys2Proof/Laws/Host.lean ====
section
/-! SUPPORT. What one step does, said once (00_scope.md R5, 30_encoding.md R60, 20_memory.md R42 to R53). -/

namespace Sys2Proof.Machine

/-- Everything a step can do: wait, take a CMD write, or take another host access. -/
theorem step_cases {s t : State} (h : step s = .next t) :
    (s.pending = [] ∧ t = s) ∨
    (∃ w rest, s.pending = .writeReg 0 w :: rest ∧ writeCommand w { s with pending := rest } = .next t) ∨
    ∃ a rest, s.pending = a :: rest ∧ (∀ w, a ≠ .writeReg 0 w) ∧ t = hostAccess Config.hw a { s with pending := rest } := by
  unfold step stepHost at h
  cases hp : s.pending with
  | nil =>
    rw [hp] at h
    cases h
    exact .inl ⟨rfl, rfl⟩
  | cons a rest =>
    rw [hp] at h
    simp only at h
    unfold perform at h
    split at h
    · exact .inr (.inl ⟨_, _, rfl, h⟩)
    · rename_i hne
      cases h
      exact .inr (.inr ⟨a, rest, rfl, hne, rfl⟩)

/-- A host access other than a CMD write always gives a next state. -/
theorem step_hostAccess {s : State} {a : HostAccess} {rest : List HostAccess} (h : s.pending = a :: rest)
    (ha : ∀ w, a ≠ .writeReg 0 w) : step s = .next (hostAccess Config.hw a { s with pending := rest }) := by
  simp only [step, stepHost, h]
  unfold perform
  split
  · exact absurd rfl (ha _)
  · rfl

/-- Everything a CMD write can do (R60). -/
theorem writeCommand_cases (w : Word) (s : State) :
    (¬(s.status.busy = false ∧ s.status.err = none) ∧ writeCommand w s = .next s) ∨
    ((s.status.busy = false ∧ s.status.err = none) ∧
      ((∃ i, decode w = .ok i ∧ writeCommand w s = exec i (acceptCommand w s)) ∨
        ∃ r, decode w = .error r ∧ writeCommand w s = .next (raiseFault .illegalCmd (acceptCommand w s)))) := by
  have ha : accepts s = true ↔ s.status.busy = false ∧ s.status.err = none := by
    simp [accepts, Option.isNone_iff_eq_none]
  by_cases h : accepts s = true
  · refine .inr ⟨ha.1 h, ?_⟩
    cases hd : decode w with
    | ok i => exact .inl ⟨i, rfl, by simp [writeCommand, h, hd]⟩
    | error r => exact .inr ⟨r, rfl, by simp [writeCommand, h, hd]⟩
  · exact .inl ⟨fun k => h (ha.2 k), by simp [writeCommand, h]⟩

/-- Numbers from 14 on name no register (R43). -/
theorem Reg.ofNumber_none {n : Nat} (h : 14 ≤ n) : Reg.ofNumber n = none := by
  simp only [Reg.ofNumber]
  exact List.getElem?_eq_none (by simpa using h)

/-- Only number 1 names STATUS (R14). -/
theorem Reg.ofNumber_status {n : Nat} (h : Reg.ofNumber n = some .status) : n = 1 := by
  rcases Nat.lt_or_ge n 14 with hn | hn
  · interval_cases n <;> first | rfl | cases h
  · rw [Reg.ofNumber_none hn] at h
    cases h

/-- No host access but a write to STATUS and reset changes STATUS. -/
theorem hostAccess_status (c : Config) (a : HostAccess) (s : State) (hr : a ≠ .reset) (hw : ∀ v, a ≠ .writeReg 1 v) :
    (hostAccess c a s).status = s.status := by
  cases a with
  | read sp i =>
    simp only [hostAccess, hostRead]
    split
    · rfl
    · split <;> rfl
  | writeReg n v =>
    simp only [hostAccess]
    split
    · rfl
    · split
      · rename_i r hr'
        cases r
        case status => exact absurd (by rw [Reg.ofNumber_status hr']) (hw v)
        all_goals rfl
      · rfl
  | writeSample sp i v =>
    simp only [hostAccess, writeSample]
    split_ifs <;> cases sp <;> rfl
  | writeBit i v =>
    simp only [hostAccess, writeBit]
    split_ifs <;> rfl
  | writeByte i v =>
    simp only [hostAccess, writeByte]
    split_ifs <;> rfl
  | reset => exact absurd rfl hr

/-- What is written to CFG is what CFG reads as, bits 31:2 gone (R27). -/
theorem cfgWord_cfgOfWord (v : Word) : cfgWord (cfgOfWord v) = v &&& 3 := by
  apply BitVec.eq_of_getLsbD_eq
  intro i hi
  have hm : (Mode.ofBit (v.getLsbD 1)).bit = v.getLsbD 1 := by cases v.getLsbD 1 <;> rfl
  simp only [cfgWord, cfgOfWord]
  rw [hm, BitVec.getLsbD_and, BitVec.getLsbD_append, BitVec.getLsbD_append]
  rcases i with _ | _ | i
  · simp
  · simp
  · have key : ∀ j : Fin 30, BitVec.getLsbD (3 : BitVec 32) (j.1 + 1 + 1) = false := by decide
    rw [key ⟨i, by omega⟩]
    simp

end Sys2Proof.Machine
end

