-- ==== Sys2Proof/Laws/PerInstr.lean ====
section
/-! SUPPORT. One statement about the encoding of every operation (30_encoding.md R57). -/

namespace Sys2Proof.Laws

/-- `match` of the operation's row of R57. -/
def rowMatch : Instr → Word
  | .bandpass => 0x00000001
  | .findSync _ => 0x00000002
  | .demod _ => 0x00000003
  | .pack => 0x00000004
  | .check => 0x00000005
  | .csgen => 0x00000006
  | .decode => 0x00000007

/-- `mask` of the operation's row of R57. -/
def rowMask : Instr → Word
  | .bandpass => 0xFFFFFFFF
  | .findSync _ => 0xFFFFFFEF
  | .demod _ => 0xFFFFFFEF
  | .pack => 0xFFFFFFFF
  | .check => 0xFFFFFFFF
  | .csgen => 0xFFFFFFFF
  | .decode => 0xFFFFFFFF

/-- The encoded word lies in the operation's row of R57, and its fields are legal (R59). -/
def EncodingRow.Statement (i : Instr) : Prop :=
  encode i &&& rowMask i = rowMatch i ∧ (CmdFields.ofWord (encode i)).wf = true

theorem EncodingRow.bandpass : EncodingRow.Statement .bandpass := ⟨by decide, by decide⟩

theorem EncodingRow.findSync (src : Src) : EncodingRow.Statement (.findSync src) := by
  cases src <;> exact ⟨by decide, by decide⟩

theorem EncodingRow.demod (src : Src) : EncodingRow.Statement (.demod src) := by
  cases src <;> exact ⟨by decide, by decide⟩

theorem EncodingRow.pack : EncodingRow.Statement .pack := ⟨by decide, by decide⟩

theorem EncodingRow.check : EncodingRow.Statement .check := ⟨by decide, by decide⟩

theorem EncodingRow.csgen : EncodingRow.Statement .csgen := ⟨by decide, by decide⟩

theorem EncodingRow.decode : EncodingRow.Statement .decode := ⟨by decide, by decide⟩

end Sys2Proof.Laws
end

