-- ==== Sys2Proof/Tests/Slice0.lean ====
section
/-! SUPPORT. Tests, and for every statement with hypotheses a witness that meets them. Expected values come from
spec/95_test_vectors.md (the vector's id is named) or are worked out by hand from the rule named. -/

namespace Sys2Proof.Tests

open Sys2Proof.Machine

/-! ### Well-formedness: one ill-formed term per check, each refused

`Instr` has no ill-formed term (R58 gives SRC two values and both are in the type), so the terms are command-word fields. -/

theorem test_wf_refuses_op_zero : CmdFields.wf { op := 0, src := false, reserved := 0 } = false := by decide

theorem test_wf_refuses_op_eight : CmdFields.wf { op := 8, src := false, reserved := 0 } = false := by decide

theorem test_wf_refuses_reserved_bit : CmdFields.wf { op := 7, src := false, reserved := 1 } = false := by decide

theorem test_wf_refuses_src_on_bandpass : CmdFields.wf { op := 1, src := true, reserved := 0 } = false := by decide

theorem test_wf_accepts_find_sync_y : CmdFields.wf { op := 2, src := true, reserved := 0 } = true := by decide

/-! ### Decoding: every constructor, from words written out bit by bit (R56, R57): 31:5 zero, SRC, OP -/

theorem test_decode_bandpass : decode 0b00000000000000000000000000000001#32 = .ok .bandpass := by decide

theorem test_decode_find_sync_x : decode 0b00000000000000000000000000000010#32 = .ok (.findSync .x) := by decide

theorem test_decode_find_sync_y : decode 0b00000000000000000000000000010010#32 = .ok (.findSync .y) := by decide

theorem test_decode_demod_x : decode 0b00000000000000000000000000000011#32 = .ok (.demod .x) := by decide

theorem test_decode_demod_y : decode 0b00000000000000000000000000010011#32 = .ok (.demod .y) := by decide

theorem test_decode_pack : decode 0b00000000000000000000000000000100#32 = .ok .pack := by decide

theorem test_decode_check : decode 0b00000000000000000000000000000101#32 = .ok .check := by decide

theorem test_decode_csgen : decode 0b00000000000000000000000000000110#32 = .ok .csgen := by decide

theorem test_decode_decode : decode 0b00000000000000000000000000000111#32 = .ok .decode := by decide

/-- Q1 to Q4 -/
theorem test_decode_illegal :
    decode 0x00000000#32 = .error .opZero ∧ decode 0x00000008#32 = .error .opReserved ∧
    decode 0x0000000F#32 = .error .opReserved ∧ decode 0x00000011#32 = .error .srcNotTaken ∧
    decode 0x00000014#32 = .error .srcNotTaken ∧ decode 0x00000015#32 = .error .srcNotTaken ∧
    decode 0x00000016#32 = .error .srcNotTaken ∧ decode 0x00000017#32 = .error .srcNotTaken ∧
    decode 0x00000021#32 = .error .reservedBits ∧ decode 0x80000007#32 = .error .reservedBits ∧
    decode 0x00000107#32 = .error .reservedBits := by decide

theorem test_encode_find_sync_y : encode (.findSync .y) = 0x00000012#32 := by decide

theorem test_table_word : decodeTableWord 32 0x13 = some (.demod .y) ∧ decodeTableWord 32 0x11 = none := by decide

/-! ### Small states and a configuration with integers for samples -/

/-- Samples are integers, N_MAX 128, R_MAX 64, F_MAX 8, B_MAX 64; what nothing has written reads as zero. -/
def testConfig : Config where
  num := {
    zero := ⟨0⟩
    add := fun a b => ⟨a.code + b.code⟩
    mul := fun a b => ⟨a.code * b.code⟩
    isNeg := fun a => decide (a.code < 0)
    magGt := fun a b => decide (b.code.natAbs < a.code.natAbs) }
  samplesAsked := 127
  referenceAsked := 63
  frameBytesAsked := 4
  unwrittenSample := fun _ _ _ => ⟨0⟩
  unwrittenBit := fun _ _ => false
  unwrittenByte := fun _ _ => 0
  freeWord := fun _ => 0
  freeSample := fun _ => ⟨0⟩
  freeBit := fun _ => false
  freeByte := fun _ => 0

/-- A memory that holds a list from index `i` on. -/
def listed {α : Type} (i : Nat) : List α → Memory α
  | [] => []
  | v :: vs => (i, v) :: listed (i + 1) vs

/-- A sample memory that holds integers from index 0 on. -/
def samples (vs : List Int) : Memory Sample := listed 0 (vs.map fun v => ⟨v⟩)

/-- What a look at the next state gives. -/
def seen {α : Type} (look : State → α) : Host.Outcome State Fault Refusal → Option α
  | .next t => some (look t)
  | .fault _ => none
  | .refused _ => none

/-- The first `n` integers of a sample memory. -/
def ints (sp : SampleSpace) (n : Nat) (t : State) : List Int :=
  (List.range n).map fun i => (readSample testConfig t sp i).code

/-- The first `n` bits of BMEM. -/
def bits (n : Nat) (t : State) : List Bool := (List.range n).map fun j => readBit testConfig t j

/-- The first `n` bytes of FMEM. -/
def bytes (n : Nat) (t : State) : List Nat := (List.range n).map fun q => (readByte testConfig t q).toNat

/-- STATUS as a word. -/
def word (t : State) : Word := readReg t .status

/-! ### The operations -/

/-- F2: taps 62, 63, 64; absent samples skipped at both ends. -/
theorem test_bandpass_three_taps :
    seen (fun t => (ints .ymem 5 t, t.ylen, word t)) (bandpassOp testConfig { State.reset with
      hmem := [(62, ⟨1⟩), (63, ⟨2⟩), (64, ⟨1⟩)], xmem := samples [1, 2, 3, 4, 5], xlen := 5 })
    = some ([4, 8, 12, 16, 14], 5, 2) := by decide

/-- F10: capacity. -/
theorem test_bandpass_too_long :
    seen (fun t => (word t, t.stage, t.ylen)) (bandpassOp testConfig { State.reset with xlen := 129 })
    = some (0x22, .filter, 0) := by decide

/-- S2: magnitude, not signed value. -/
theorem test_find_sync_magnitude :
    seen (fun t => t.sync) (findSyncOp testConfig .x { State.reset with
      xmem := samples [1, -3, 2], xlen := 3, rmem := samples [1], rlen := 1 }) = some 2 := by decide

/-- S3 on YMEM: the first of two equal magnitudes wins. -/
theorem test_find_sync_tie :
    seen (fun t => t.sync) (findSyncOp testConfig .y { State.reset with
      ymem := samples [2, -2], ylen := 2, rmem := samples [1], rlen := 1 }) = some 1 := by decide

/-- M3: toggle, hold, toggle. -/
theorem test_demod_toggles :
    seen (fun t => (bits 3 t, t.bitcnt)) (demodOp testConfig .x { State.reset with
      xmem := samples [2, -1, -2, 1, -2, 1, 2, -1], xlen := 8, chunk := 2, nbits := 3 })
    = some ([false, false, true], 3) := by decide

/-- M6: odd start, early stop. -/
theorem test_demod_early_stop :
    seen (fun t => (bits 2 t, t.bitcnt)) (demodOp testConfig .x { State.reset with
      xmem := samples [2, -1, -2, 1, -2, 1, 2, -1], xlen := 8, chunk := 2, nbits := 3, start := 1 })
    = some ([true, false], 2) := by decide

/-- K8: the first bit is the most significant, the ninth is dropped. -/
theorem test_pack_order_and_remainder :
    seen (fun t => (bytes 1 t, t.flen)) (packOp testConfig { State.reset with
      bmem := listed 0 [true, false, true, false, true, false, true, true, true], bitcnt := 9 })
    = some ([171], 1) := by decide

/-- K9: BITCNT = B_MAX + 1. -/
theorem test_pack_bad_count :
    seen (fun t => (word t, t.stage, t.flen)) (packOp testConfig { State.reset with bitcnt := 65 })
    = some (0x72, .pack, 0) := by decide

/-- V8: the modulus is 255, not 256. -/
theorem test_check_modulus :
    seen word (checkOp testConfig { State.reset with fmem := listed 0 [128, 127, 1, 1], flen := 4 })
    = some 0x6 := by decide

/-- V14 with VALID = 1 before: too short, VALID is cleared. -/
theorem test_check_short_clears_valid :
    seen word (checkOp testConfig { State.reset with
      fmem := listed 0 [10, 20, 30], flen := 3, status := { State.reset.status with valid := true } })
    = some 0x2 := by decide

/-- G3. -/
theorem test_csgen :
    seen (fun t => t.csum) (csgenOp testConfig { State.reset with fmem := listed 0 [200, 100, 0], flen := 4 })
    = some 45 := by decide

/-- G5. -/
theorem test_csgen_short :
    seen (fun t => (word t, t.stage)) (csgenOp testConfig { State.reset with fmem := listed 0 [10, 20], flen := 2 })
    = some (0x82, .csgen) := by decide

/-- By hand from R91: tap 63 copies the input; the peak is at lag 0, so SYNC = 1; two chunks follow it, their product is
2·(−2) + (−1)·1 = −5, so the one bit is 0; no byte, not valid. -/
theorem test_decode_short_waveform :
    seen (fun t => (ints .ymem 5 t, t.sync, bits 1 t, t.bitcnt, t.flen, word t))
      (decodeOp testConfig { State.reset with
        hmem := [(63, ⟨1⟩)], xmem := samples [9, 2, -1, -2, 1], xlen := 5, rmem := samples [1], rlen := 1, chunk := 2 })
    = some ([9, 2, -1, -2, 1], 1, [false], 1, 0, 2) := by decide

/-- P5: stages 1 and 2 completed, stage 3 faulted. -/
theorem test_decode_bad_mode :
    seen (fun t => (word t, t.stage, t.ylen, t.sync, t.bitcnt)) (decodeOp testConfig { State.reset with
      hmem := [(63, ⟨1⟩)], xmem := samples [9, 2], xlen := 2, rmem := samples [1], rlen := 1, chunk := 2,
      cfg := { initBit := true, mode := .absolutePhase } })
    = some (0x62, .demod, 2, 1, 0) := by decide

/-! ### The step -/

/-- P5: DECODE straight after reset. -/
theorem test_step_decode_after_reset :
    seen (fun t => (t.cmd, word t, t.stage)) (step (State.reset.withFetchWord 32 0x07))
    = some (0x07, 0x22, .filter) := rfl

/-- P5: while halted a CMD write is ignored. -/
theorem test_step_halted_ignores :
    step { State.reset with
      pending := [.writeReg 0 0x04], cmd := 0x07, stage := .filter
      status := { busy := false, done := true, valid := false, err := some .badLen } } =
    .next { State.reset with
      cmd := 0x07, stage := .filter, status := { busy := false, done := true, valid := false, err := some .badLen } } := rfl

/-- Q3: BANDPASS with SRC = 1; CMD holds the word, STAGE is 0. -/
theorem test_step_illegal :
    seen (fun t => (t.cmd, word t, t.stage)) (step (State.reset.withFetchWord 32 0x11))
    = some (0x11, 0x12, .idle) := rfl

/-- R26: a STATUS write clears ERR and STAGE, DONE stays. -/
theorem test_step_clear_fault :
    seen (fun t => (word t, t.stage)) (step { State.reset with
      pending := [.writeReg 1 0], stage := .filter
      status := { busy := false, done := true, valid := false, err := some .badLen } }) = some (2, .idle) := rfl

/-- R27: bits 31:2 of CFG are ignored. -/
theorem test_step_write_cfg :
    seen (fun t => readReg t .cfg) (step { State.reset with pending := [.writeReg 2 0xFFFFFFFE] }) = some 2 := rfl

/-- R14: register 5 is RLEN and register 10 is BITCNT. -/
theorem test_step_register_numbers :
    Host.Core.run Sys2Proof.core 2 { State.reset with pending := [.writeReg 5 7, .writeReg 10 8] } =
    .next { State.reset with rlen := 7, bitcnt := 8 } := rfl

/-- R43: YLEN is read-only. -/
theorem test_step_write_read_only :
    step { State.reset with pending := [.writeReg 4 5] } = .next State.reset := rfl

/-- R42, R45: what was written is read back. -/
theorem test_store_lookup : Memory.lookup (Memory.store (samples [1, 2, 3]) 1 ⟨9⟩) 1 = some ⟨9⟩ := by decide

/-- `Host.Core.run` runs the machine: WR XLEN, 5 and a read of it. -/
theorem test_run :
    seen (fun t => (t.xlen, t.lastRead)) (Host.Core.run Sys2Proof.core 2 { State.reset with
      pending := [.writeReg 3 5, .read .reg 3] }) = some (5, some (.word 5)) := rfl

/-! ### Witnesses

For every statement of Certificates/Slice0/Obligations.lean that has hypotheses: a concrete state and operands that meet them
together, one theorem per clause where the clauses have hypotheses of their own. What is said of `Config.hw` must hold for
every legal capacity, so the lengths are the smallest, 1, or the capacity itself. -/

/-- A state in which BANDPASS, FIND_SYNC X, DEMOD X, PACK, CHECK and DECODE complete on any hardware. -/
def one : State := { State.reset with xlen := 1, rlen := 1, chunk := 2 }

/-- A halted state, as BANDPASS with XLEN = 0 leaves it. -/
def halted (accesses : List HostAccess) : State :=
  { State.reset with
    pending := accesses, cmd := 1, stage := .filter, status := { busy := false, done := true, valid := false, err := some .badLen } }

/-- A busy state, which the host never sees between operations (R5) but R53 speaks of. -/
def busy (accesses : List HostAccess) : State :=
  { State.reset with pending := accesses, status := { busy := true, done := false, valid := false, err := none } }

theorem one_bandpass : ∃ t, exec .bandpass one = .next t ∧ t.status.err = none ∧ t.stage = .idle := by
  have h := Config.hw.one_le_nMax
  rcases filterStage_cases Config.hw one with ⟨k, _⟩ | ⟨_, e⟩
  · change 1 = 0 ∨ _ < 1 at k; omega
  · exact ⟨_, by rw [exec_bandpass, e]; rfl, rfl, rfl⟩

theorem one_find_sync : ∃ t, exec (.findSync .x) one = .next t ∧ t.status.err = none := by
  have h := Config.hw.one_le_nMax
  have h' := Config.hw.one_le_rMax
  rcases syncStage_cases Config.hw one .x with ⟨k, _⟩ | ⟨_, ⟨k, _⟩ | ⟨_, e⟩⟩
  · change 1 = 0 ∨ _ < 1 at k; omega
  · change 1 = 0 ∨ _ < 1 ∨ 1 < 1 at k; omega
  · exact ⟨_, by rw [exec_findSync, e]; rfl, rfl⟩

/-- How DECODE ends in a state like `one` with another RLEN, MODE or CHUNK. -/
theorem one_decode (l k : Word) (m : Mode) :
    ∃ t, exec .decode { one with rlen := l, chunk := k, cfg := { initBit := true, mode := m } } = .next t ∧
      (l = 0 → t.status.err = some .badRef) ∧ (l = 1 → m = .absolutePhase → t.status.err = some .badMode) ∧
      (l = 1 → m = .differential → k.toNat < 2 → t.status.err = some .badChunk) ∧
      (l = 1 → m = .differential → 2 ≤ k.toNat → t.status.err = none) := by
  have h := Config.hw.one_le_nMax
  have h' := Config.hw.one_le_rMax
  rw [exec_decode]
  rcases decodeStages_cases Config.hw
    (clearValid { one with rlen := l, chunk := k, cfg := { initBit := true, mode := m } }) with
    ⟨q, e⟩ | ⟨_, ⟨q, e⟩ | ⟨q, ⟨q1, e⟩ | ⟨q1, ⟨q2, e⟩ | ⟨q2, e⟩⟩⟩⟩
  · change 1 = 0 ∨ _ < 1 at q; omega
  · refine ⟨_, by rw [e]; rfl, fun _ => rfl, ?_, ?_, ?_⟩ <;> rintro rfl <;> change 1 = 0 ∨ _ < 1 ∨ 1 < 1 at q <;> omega
  · change m = _ at q1
    subst q1
    refine ⟨_, by rw [e]; rfl, ?_, fun _ _ => rfl, nofun, nofun⟩
    rintro rfl; change 1 ≤ 0 ∧ _ at q; omega
  · change k.toNat < 2 at q2
    change m = _ at q1
    subst q1
    refine ⟨_, by rw [e]; rfl, ?_, nofun, fun _ _ _ => rfl, fun _ _ _ => by omega⟩
    rintro rfl; change 1 ≤ 0 ∧ _ at q; omega
  · change 2 ≤ k.toNat at q2
    change m = _ at q1
    subst q1
    refine ⟨_, by rw [e]; rfl, ?_, nofun, fun _ _ _ => by omega, fun _ _ _ => rfl⟩
    rintro rfl; change 1 ≤ 0 ∧ _ at q; omega

theorem inv_of_empty (accesses : List HostAccess) (x r k : Word) :
    Inv Config.hw { State.reset with pending := accesses, xlen := x, rlen := r, chunk := k } where
  idle := rfl
  stageAgrees := by simp [State.reset, stagesOf]
  faultDone := fun h => absurd rfl h
  ylenFits := Nat.zero_le _
  syncFits := Nat.zero_le _
  csumRange := Nat.zero_le _
  xmemOk := ⟨List.Pairwise.nil, nofun⟩
  ymemOk := ⟨List.Pairwise.nil, nofun⟩
  hmemOk := ⟨List.Pairwise.nil, nofun⟩
  rmemOk := ⟨List.Pairwise.nil, nofun⟩
  bmemOk := ⟨List.Pairwise.nil, nofun⟩
  fmemOk := ⟨List.Pairwise.nil, nofun⟩

theorem witness_EncodeAndDecodeAgree : Instr.wf (.findSync .y) = true ∧ decode 0x12#32 = .ok (.findSync .y) := by decide

theorem witness_StepRunsTheDecodedCommand :
    (State.reset.withFetchWord 32 7).pending = .writeReg 0 7 :: [] ∧ (State.reset.withFetchWord 32 7).status.busy = false ∧
    (State.reset.withFetchWord 32 7).status.err = none ∧ decode 7 = .ok .decode := by decide

theorem witness_CommandWriteSequence_ignored :
    (halted [.writeReg 0 4]).pending = .writeReg 0 4 :: [] ∧
    ¬((halted [.writeReg 0 4]).status.busy = false ∧ (halted [.writeReg 0 4]).status.err = none) := by decide

theorem witness_CommandWriteSequence_accepted :
    (State.reset.withFetchWord 32 5).pending = .writeReg 0 5 :: [] ∧ (State.reset.withFetchWord 32 5).status.busy = false ∧
    (State.reset.withFetchWord 32 5).status.err = none ∧ decode 5 = .ok .check := by decide

theorem witness_IllegalWordsFault :
    (0x11#32) ∉ [0x01#32, 0x02, 0x12, 0x03, 0x13, 0x04, 0x05, 0x06, 0x07] ∧ decode 0x11#32 = .error .srcNotTaken ∧
    (State.reset.withFetchWord 32 0x11).pending = .writeReg 0 0x11 :: [] ∧
    (State.reset.withFetchWord 32 0x11).status.busy = false ∧
    (State.reset.withFetchWord 32 0x11).status.err = none := by decide

theorem witness_IdleBlockWaits : State.reset.pending = [] := rfl

theorem witness_FirstFailingCheckIsReported_fault :
    ∃ t, exec .bandpass State.reset = .next t ∧ firstFault Config.hw .bandpass State.reset = some (.badLen, .filter) :=
  ⟨_, rfl, by simp [firstFault, State.reset]⟩

theorem witness_FirstFailingCheckIsReported_none :
    ∃ t, exec .check State.reset = .next t ∧ firstFault Config.hw .check State.reset = none :=
  ⟨_, rfl, by simp [firstFault, State.reset]⟩

theorem witness_FaultsArePrecise_single :
    ∃ t, Instr.csgen ≠ .decode ∧ State.reset.status.err = none ∧ exec .csgen State.reset = .next t ∧
      t.status.err = some .shortFrame := by
  rcases csgenStage_cases Config.hw State.reset with ⟨k, _⟩ | ⟨_, ⟨_, e⟩ | ⟨k, _⟩⟩
  · change _ < 0 at k; omega
  · exact ⟨_, nofun, rfl, by rw [exec_csgen, e]; rfl, rfl⟩
  · change 3 ≤ 0 at k; omega

theorem witness_FaultsArePrecise_filter :
    ∃ t, State.reset.status.err = none ∧ exec .decode State.reset = .next t ∧ t.status.err = some .badLen :=
  ⟨_, rfl, rfl, rfl⟩

theorem witness_FaultsArePrecise_sync :
    ∃ s t, s.status.err = none ∧ exec .decode s = .next t ∧ t.status.err = some .badRef :=
  have ⟨t, h, h', _⟩ := one_decode 0 2 .differential
  ⟨_, t, rfl, h, h' rfl⟩

theorem witness_FaultsArePrecise_demod :
    ∃ s t, s.status.err = none ∧ exec .decode s = .next t ∧ t.status.err = some .badChunk :=
  have ⟨t, h, _, _, h', _⟩ := one_decode 1 1 .differential
  ⟨_, t, rfl, h, h' rfl rfl (by decide)⟩

theorem witness_HaltedBlockIgnoresCommands :
    ∃ t, (halted [.writeReg 0 4]).status.err = some .badLen ∧ step (halted [.writeReg 0 4]) = .next t := ⟨_, rfl, rfl⟩

theorem witness_LeavingTheHaltedState_status :
    (halted [.writeReg 1 0]).pending = .writeReg 1 0 :: [] ∧ Idle (halted [.writeReg 1 0]) := ⟨rfl, rfl⟩

theorem witness_LeavingTheHaltedState_reset : (halted [.reset]).pending = .reset :: [] := rfl

theorem witness_LeavingTheHaltedState_left :
    ∃ t, Halted (halted [.writeReg 1 7]) ∧ step (halted [.writeReg 1 7]) = .next t ∧ ¬Halted t :=
  ⟨_, nofun, rfl, fun h => h rfl⟩

theorem witness_BandpassFiltersTheInput_fault : State.reset.xlen.toNat = 0 := rfl

theorem witness_BandpassFiltersTheInput_one : 1 ≤ one.xlen.toNat ∧ one.xlen.toNat ≤ Config.hw.nMax :=
  ⟨le_refl 1, Config.hw.one_le_nMax⟩

theorem witness_BandpassFiltersTheInput_full :
    let s : State := { State.reset with xlen := BitVec.ofNat 32 Config.hw.nMax }
    1 ≤ s.xlen.toNat ∧ s.xlen.toNat ≤ Config.hw.nMax := by
  have h := Config.hw.one_le_nMax
  have h' := Config.hw.nMax_lt
  simp only [BitVec.toNat_ofNat, Nat.mod_eq_of_lt h']
  omega

theorem witness_OneSampleInputUsesTap63 : one.xlen = 1 := rfl

theorem witness_FindSyncReturnsThePeakEnd_badLen :
    (Src.y = .y → 0 = State.reset.ylen.toNat ∧ SampleSpace.ymem = .ymem) := fun _ => ⟨rfl, rfl⟩

theorem witness_FindSyncReturnsThePeakEnd_badRef :
    let s : State := { one with rlen := 0 }
    1 = s.xlen.toNat ∧ 1 ≤ Config.hw.nMax ∧ s.rlen.toNat = 0 := ⟨rfl, Config.hw.one_le_nMax, rfl⟩

theorem witness_FindSyncReturnsThePeakEnd_done :
    1 = one.xlen.toNat ∧ 1 ≤ Config.hw.nMax ∧ 1 ≤ one.rlen.toNat ∧ one.rlen.toNat ≤ Config.hw.rMax ∧ one.rlen.toNat ≤ 1 :=
  ⟨rfl, Config.hw.one_le_nMax, le_refl 1, Config.hw.one_le_rMax, le_refl 1⟩

/-- S2, whose peak is at lag 1. -/
def peaked : State := { State.reset with xmem := samples [1, -3, 2], xlen := 3, rmem := samples [1], rlen := 1 }

theorem witness_PeakIsTheFirstMaximum :
    ∃ t, (∀ a b, testConfig.num.magGt a b = true ↔ b.code.natAbs < a.code.natAbs) ∧
      findSyncOp testConfig .x peaked = .next t ∧ peaked.status.err = none ∧ t.status.err = none :=
  ⟨_, fun _ _ => decide_eq_true_iff, rfl, rfl, rfl⟩

theorem witness_SyncLiesInTheWaveform :
    ∃ t, exec (.findSync .x) one = .next t ∧ one.status.err = none ∧ t.status.err = none :=
  have ⟨t, h, h'⟩ := one_find_sync
  ⟨t, h, rfl, h'⟩

theorem witness_ExactCopyIsFound :
    ∃ t, findSyncOp testConfig .x peaked = .next t ∧ peaked.status.err = none ∧ t.status.err = none ∧
      1 + peaked.rlen.toNat ≤ srcLength .x peaked ∧
      (∀ j, j < 1 → testConfig.num.magGt (lagSum testConfig peaked (srcSpace .x) 1)
        (lagSum testConfig peaked (srcSpace .x) j) = true) ∧
      ∀ j, 1 < j → j + peaked.rlen.toNat ≤ srcLength .x peaked →
        testConfig.num.magGt (lagSum testConfig peaked (srcSpace .x) j)
          (lagSum testConfig peaked (srcSpace .x) 1) = false := by
  refine ⟨_, rfl, rfl, rfl, by decide, by decide, fun j hj hl => ?_⟩
  have : j = 2 := by change j + 1 ≤ 3 at hl; omega
  subst this
  decide

theorem witness_DemodProducesTheBits_badMode :
    ({ State.reset with cfg := { initBit := true, mode := .absolutePhase } } : State).cfg.mode = .absolutePhase := rfl

theorem witness_DemodProducesTheBits_badLen : State.reset.cfg.mode = .differential ∧ State.reset.ylen.toNat = 0 := ⟨rfl, rfl⟩

theorem witness_DemodProducesTheBits_badChunk :
    let s : State := { one with chunk := 1 }
    s.cfg.mode = .differential ∧ s.xlen.toNat = 1 ∧ 1 ≤ Config.hw.nMax ∧ s.chunk.toNat < 2 :=
  ⟨rfl, rfl, Config.hw.one_le_nMax, by decide⟩

theorem witness_DemodProducesTheBits_badNbits :
    let s : State := { one with nbits := BitVec.ofNat 32 (Config.hw.bMax + 1) }
    s.cfg.mode = .differential ∧ s.xlen.toNat = 1 ∧ 1 ≤ Config.hw.nMax ∧ 2 ≤ s.chunk.toNat ∧
      Config.hw.bMax < s.nbits.toNat := by
  refine ⟨rfl, rfl, Config.hw.one_le_nMax, by decide, ?_⟩
  have h := Config.hw.bMax_lt
  simp only [BitVec.toNat_ofNat]
  omega

theorem witness_DemodProducesTheBits_done :
    let s : State := { one with nbits := BitVec.ofNat 32 Config.hw.bMax }
    s.cfg.mode = .differential ∧ s.xlen.toNat = 1 ∧ 1 ≤ Config.hw.nMax ∧ 2 ≤ s.chunk.toNat ∧
      s.nbits.toNat ≤ Config.hw.bMax := by
  refine ⟨rfl, rfl, Config.hw.one_le_nMax, by decide, ?_⟩
  have h := Config.hw.bMax_lt
  simp only [BitVec.toNat_ofNat]
  omega

/-- M3 and its neighbours: A8 with chunk length 2. -/
def chunked (start nbits : Word) : State :=
  { State.reset with
    xmem := samples [2, -1, -2, 1, -2, 1, 2, -1], xlen := 8, chunk := 2, start := start, nbits := nbits }

/-- M3: exactly NBITS + 1 chunks fit. -/
theorem witness_DemodStopsEarly_all :
    ∃ t, demodOp testConfig .x (chunked 0 3) = .next t ∧ (chunked 0 3).status.err = none ∧ t.status.err = none ∧
      ((chunked 0 3).nbits.toNat + 1) * (chunked 0 3).chunk.toNat + (chunked 0 3).start.toNat ≤ srcLength .x (chunked 0 3) ∧
      t.bitcnt.toNat ≠ 0 := ⟨_, rfl, rfl, rfl, by decide, by decide⟩

/-- M8 with START = 5: one sample short of two chunks. -/
theorem witness_DemodStopsEarly_none :
    ∃ t, demodOp testConfig .x (chunked 5 3) = .next t ∧ (chunked 5 3).status.err = none ∧ t.status.err = none ∧
      srcLength .x (chunked 5 3) < 2 * (chunked 5 3).chunk.toNat + (chunked 5 3).start.toNat ∧
      t.bitcnt.toNat < (chunked 5 3).nbits.toNat := ⟨_, rfl, rfl, rfl, by decide, by decide⟩

theorem witness_InvertingInitBitInvertsTheBits :
    ∃ t, demodOp testConfig .x (chunked 0 3) = .next t ∧ (chunked 0 3).status.err = none ∧ t.status.err = none ∧
      0 < t.bitcnt.toNat := ⟨_, rfl, rfl, rfl, by decide⟩

/-- Bit 1 is sent as [2, -1], bit 0 as [-2, 1] (the `g` of spec/95_test_vectors.md). -/
def sentAs (b : Bool) (i : Nat) : Sample := ⟨if b then (if i = 0 then 2 else -1) else (if i = 0 then -2 else 1)⟩

/-- The chunks of A8: +g, -g, -g, +g. -/
def sentBits (m : Nat) : Bool := m = 0 || m = 3

theorem witness_DemodulationInvertsModulation :
    ∃ t, (∀ m i, m ≤ (chunked 0 3).nbits.toNat → i < (chunked 0 3).chunk.toNat →
        readSample testConfig (chunked 0 3) (srcSpace .x)
          ((chunked 0 3).start.toNat + m * (chunked 0 3).chunk.toNat + i) = sentAs (sentBits m) i) ∧
      (∀ a b, testConfig.num.isNeg (loopSum testConfig.num (chunked 0 3).chunk.toNat (fun _ => true)
        fun i => testConfig.num.mul (sentAs a i) (sentAs b i)) = (a != b)) ∧
      (chunked 0 3).cfg.initBit = sentBits 0 ∧ (chunked 0 3).status.err = none ∧
      demodOp testConfig .x (chunked 0 3) = .next t ∧ t.status.err = none ∧ 0 < t.bitcnt.toNat := by
  refine ⟨_, fun m i hm hi => ?_, by decide, rfl, rfl, rfl, rfl, by decide⟩
  change m ≤ 3 at hm
  change i < 2 at hi
  interval_cases m <;> interval_cases i <;> decide

theorem witness_PackPacksMostSignificantFirst_badCount :
    let s : State := { State.reset with bitcnt := BitVec.ofNat 32 (Config.hw.bMax + 1) }
    Config.hw.bMax < s.bitcnt.toNat := by
  have h := Config.hw.bMax_lt
  simp only [BitVec.toNat_ofNat]
  omega

theorem witness_PackPacksMostSignificantFirst_done :
    let s : State := { State.reset with bitcnt := BitVec.ofNat 32 Config.hw.bMax }
    s.bitcnt.toNat ≤ Config.hw.bMax ∧ 4 ≤ s.bitcnt.toNat / 8 := by
  have h := Config.hw.bMax_lt
  have h' := Config.hw.bMax_ge
  simp only [BitVec.toNat_ofNat]
  omega

/-- K8: the ninth bit may change. -/
theorem witness_RemainderBitsInfluenceNothing :
    let s : State := { State.reset with bmem := listed 0 [true, false, true, false, true, false, true, true, true], bitcnt := 9 }
    let m : Memory Bool := listed 0 [true, false, true, false, true, false, true, true, false]
    ∀ j, j < 8 * (s.bitcnt.toNat / 8) → readBit Config.hw { s with bmem := m } j = readBit Config.hw s j := by
  intro s m j hj
  have hj : j < 8 := lt_of_lt_of_eq hj (by decide : 8 * ((9#32).toNat / 8) = 8)
  interval_cases j <;> rfl

theorem witness_CheckSetsValid_badCount :
    let s : State := { State.reset with flen := BitVec.ofNat 32 (Config.hw.fMax + 1) }
    Config.hw.fMax < s.flen.toNat := by
  have h := Config.hw.fMax_lt
  simp only [BitVec.toNat_ofNat]
  omega

/-- A frame of exactly F_MAX bytes. -/
theorem witness_CheckSetsValid_done :
    let s : State := { State.reset with flen := BitVec.ofNat 32 Config.hw.fMax }
    s.flen.toNat ≤ Config.hw.fMax ∧ 4 ≤ s.flen.toNat := by
  have h := Config.hw.fMax_lt
  have h' := Config.hw.four_le_fMax
  simp only [BitVec.toNat_ofNat]
  omega

theorem witness_CsgenWritesTheChecksum_short : ({ State.reset with flen := 2 } : State).flen.toNat < 3 := by decide

theorem witness_CsgenWritesTheChecksum_done :
    let s : State := { State.reset with flen := 3 }
    3 ≤ s.flen.toNat ∧ s.flen.toNat ≤ Config.hw.fMax := by
  have h := Config.hw.four_le_fMax
  exact ⟨le_refl 3, (by decide : (3#32).toNat ≤ 4).trans h⟩

/-- V1: the frame [10, 20, 30, 60]. -/
theorem witness_WhatTheCheckCatches :
    let s : State := { State.reset with fmem := listed 0 [10, 20, 30, 60], flen := 4 }
    4 ≤ s.flen.toNat ∧ s.flen.toNat ≤ Config.hw.fMax ∧
      ∃ t, exec .check { s with fmem := s.fmem } = .next t ∧ t.status.valid = true := by
  intro s
  have h := Config.hw.four_le_fMax
  refine ⟨le_refl 4, h, ?_⟩
  rcases checkStage_cases Config.hw (clearValid s) with ⟨k, _⟩ | ⟨_, e⟩
  · change _ < 4 at k; omega
  · exact ⟨_, by rw [exec_check]; exact congrArg _ e, rfl⟩

theorem witness_DecodeRunsTheFiveStages :
    one.xlen.toNat ≤ Config.hw.nMax ∧ 1 ≤ one.rlen.toNat ∧ one.rlen.toNat ≤ Config.hw.rMax ∧
      one.rlen.toNat ≤ one.xlen.toNat ∧ one.cfg.mode = .differential ∧ 2 ≤ one.chunk.toNat :=
  ⟨Config.hw.one_le_nMax, le_refl 1, Config.hw.one_le_rMax, le_refl 1, rfl, le_refl 2⟩

theorem witness_DecodeEqualsItsParts :
    ∃ t, one.status.busy = false ∧ one.status.err = none ∧
      step { one with pending := [.writeReg 0 0x07] } = .next t ∧ t.status.err = none := by
  obtain ⟨u, hu⟩ := exec_next (acceptCommand 7 one) .decode
  refine ⟨u, rfl, rfl, hu, ?_⟩
  have hm := Config.hw.one_le_nMax
  have hr := Config.hw.one_le_rMax
  rw [exec_decode] at hu
  rcases decodeStages_cases Config.hw (clearValid (acceptCommand 7 one)) with
    ⟨q, _⟩ | ⟨_, ⟨q, _⟩ | ⟨_, ⟨q, _⟩ | ⟨_, ⟨q, _⟩ | ⟨_, e⟩⟩⟩⟩
  · change 1 = 0 ∨ _ < 1 at q; omega
  · change 1 = 0 ∨ _ < 1 ∨ 1 < 1 at q; omega
  · cases q
  · change 2 < 2 at q; omega
  · rw [e] at hu
    cases hu
    rfl

/-- Two states that agree on the inputs and differ in START, YMEM and FMEM. -/
theorem witness_DecodeDependsOnItsInputsOnly :
    let s' : State := { one with start := 5, ymem := [(0, ⟨7⟩)], fmem := [(0, 9)] }
    ∃ t t', one.status.err = none ∧ s'.status.err = none ∧ one.xlen = s'.xlen ∧ one.rlen = s'.rlen ∧
      one.chunk = s'.chunk ∧ one.cfg = s'.cfg ∧
      (∀ i, i < one.xlen.toNat → readSample Config.hw one .xmem i = readSample Config.hw s' .xmem i) ∧
      (∀ k, k < 128 → readSample Config.hw one .hmem k = readSample Config.hw s' .hmem k) ∧
      (∀ k, k < one.rlen.toNat → readSample Config.hw one .rmem k = readSample Config.hw s' .rmem k) ∧
      exec .decode one = .next t ∧ exec .decode s' = .next t' := by
  intro s'
  obtain ⟨t, h⟩ := exec_next one .decode
  obtain ⟨t', h'⟩ := exec_next s' .decode
  exact ⟨t, t', rfl, rfl, rfl, rfl, rfl, rfl, fun _ _ => rfl, fun _ _ => rfl, fun _ _ => rfl, h, h'⟩

theorem witness_ShortWaveformNeverValid :
    ∃ t, one.status.err = none ∧ exec .decode one = .next t ∧ t.status.err = none ∧
      one.xlen.toNat < t.sync.toNat + 33 * one.chunk.toNat := by
  have ⟨t, h, _, _, _, h'⟩ := one_decode 1 2 .differential
  refine ⟨t, rfl, h, h' rfl rfl (le_refl 2), ?_⟩
  change 1 < _ + 33 * 2
  omega

theorem witness_RepeatingAnOperationChangesNothing :
    ∃ t, Inv Config.hw { one with status := { one.status with busy := false } } ∧ exec .bandpass one = .next t ∧
      t.status.err = none :=
  have ⟨t, h, h', _⟩ := one_bandpass
  ⟨t, inv_of_empty [] 1 1 2, h, h'⟩

theorem witness_OperationsWriteOnlyTheirOutputs : ∃ t, exec .bandpass one = .next t ∧ t.status.err = none :=
  have ⟨t, h, h', _⟩ := one_bandpass
  ⟨t, h, h'⟩

theorem witness_OnlyCheckAndDecodeTouchValid :
    ∃ t, exec .decode State.reset = .next t ∧ State.reset.status.err = none ∧ t.status.err ≠ none :=
  ⟨_, rfl, rfl, nofun⟩

/-- The first and the last register. -/
theorem witness_HostReadChangesNothing_register :
    let s (i : Nat) : State := { State.reset with pending := [.read .reg i] }
    ∀ i, i ∈ [0, 13] → (s i).pending = .read .reg i :: [] ∧ Idle (s i) ∧
      ∃ w, (i, w) ∈ [(0, (s i).cmd), (13, readReg (s i) .stage)] := by
  intro s i h
  refine ⟨rfl, rfl, ?_⟩
  fin_cases h
  · exact ⟨_, List.mem_cons_self⟩
  · exact ⟨_, List.mem_cons_of_mem _ List.mem_cons_self⟩

/-- The last coefficient, and the last element every BMEM and FMEM has. -/
theorem witness_HostReadChangesNothing_element :
    let s (sp : Space) (i : Nat) : State := { State.reset with pending := [.read sp i] }
    (Idle (s (.sample .hmem) 127) ∧ 127 < Config.hw.capacity .hmem) ∧ (Idle (s .bmem 31) ∧ 31 < Config.hw.bMax) ∧
      (Idle (s .fmem 3) ∧ 3 < Config.hw.fMax) :=
  ⟨⟨rfl, by decide⟩, ⟨rfl, Config.hw.bMax_ge⟩, ⟨rfl, Config.hw.four_le_fMax⟩⟩

/-- One past the end, and inside. -/
theorem witness_HostWriteReplacesOneElement :
    let s (a : HostAccess) : State := { State.reset with pending := [a] }
    (s (.writeSample .hmem 127 ⟨1⟩)).pending = .writeSample .hmem 127 ⟨1⟩ :: [] ∧
    (s (.writeSample .hmem 128 ⟨1⟩)).pending = .writeSample .hmem 128 ⟨1⟩ :: [] ∧
    (s (.writeBit 31 true)).pending = .writeBit 31 true :: [] ∧
    (s (.writeByte 3 60)).pending = .writeByte 3 60 :: [] ∧ ∀ a, Idle (s a) := ⟨rfl, rfl, rfl, rfl, fun _ => rfl⟩

/-- Every number but CMD's and STATUS's, and the first that names none. -/
theorem witness_HostWritesToRegisters :
    let s (n : Nat) : State := { State.reset with pending := [.writeReg n 0xFFFFFFFF] }
    ∀ n, n ∈ [2, 3, 4, 5, 6, 7, 8, 9, 10, 11, 12, 13, 14] → (s n).pending = .writeReg n 0xFFFFFFFF :: [] ∧ Idle (s n) ∧ 2 ≤ n := by
  intro s n h
  refine ⟨rfl, rfl, ?_⟩
  fin_cases h <;> decide

theorem witness_BusyBlockIgnoresWrites :
    (busy [.writeReg 0 4]).pending = .writeReg 0 4 :: [] ∧ (busy [.read .reg 1]).pending = .read .reg 1 :: [] ∧
    (busy [.writeReg 0 4]).status.busy = true ∧ (busy [.read .reg 1]).status.busy = true ∧
    HostAccess.writeReg 0 4 ≠ .reset ∧ HostAccess.read .reg 1 ≠ .reset := by decide

theorem witness_ResetInput : (busy [.reset]).pending = .reset :: [] := rfl

theorem witness_StepKeepsTheInvariant :
    ∃ t, Inv Config.hw { State.reset with pending := [.writeReg 0 0], xlen := 1, rlen := 1, chunk := 2 } ∧
      step { State.reset with pending := [.writeReg 0 0], xlen := 1, rlen := 1, chunk := 2 } = .next t :=
  ⟨_, inv_of_empty _ 1 1 2, rfl⟩

end Sys2Proof.Tests
end

/-! ## The invariant of Safety.lean

Host accesses keep `Inv` directly. A command breaks it while its stages run (BUSY is 1, DONE is 0, STAGE is not 0), so each
stage is shown to keep the weaker `Running`, and to leave at a fault a STAGE that can raise it; the end of the operation
turns both into `Inv` again. -/

namespace Sys2Proof.Machine

section

variable {c : Config} {s : State}

/-! ### Memories in canonical form within their space -/

theorem MemoryOk.nil {α : Type} {cap : Nat} : MemoryOk cap ([] : Memory α) := ⟨List.Pairwise.nil, nofun⟩

theorem MemoryOk.store {α : Type} {cap i : Nat} {m : Memory α} (h : MemoryOk cap m) (hi : i < cap) (v : α) :
    MemoryOk cap (Memory.store m i v) :=
  ⟨Memory.store_wf m h.wf i v, Memory.store_within m h.within hi v⟩

theorem MemoryOk.storeUpTo {α : Type} {cap n : Nat} {m : Memory α} (h : MemoryOk cap m) (f : Nat → α) (hn : n ≤ cap) :
    MemoryOk cap (Memory.storeUpTo f m n) :=
  ⟨Memory.storeUpTo_wf f m h.wf n, Memory.storeUpTo_within f m h.within n hn⟩

theorem MemoryOk.demodLoop {cap n : Nat} {m : Memory Bool} (h : MemoryOk cap m) (rev : Nat → Bool) (init : Bool)
    (hn : n ≤ cap) : MemoryOk cap (demodLoop rev init m n).2 :=
  ⟨demodLoop_wf rev init m h.wf n, demodLoop_within rev init m h.within n hn⟩

/-! ### Reset and the host's accesses other than a CMD write -/

theorem inv_reset (c : Config) : Inv c State.reset where
  idle := rfl
  stageAgrees := List.mem_singleton_self _
  faultDone halted := absurd rfl halted
  ylenFits := Nat.zero_le _
  syncFits := Nat.zero_le _
  csumRange := Nat.zero_le _
  xmemOk := .nil
  ymemOk := .nil
  hmemOk := .nil
  rmemOk := .nil
  bmemOk := .nil
  fmemOk := .nil

/-- R101: with ERR and STAGE both cleared they agree. -/
theorem Inv.clearFault (h : Inv c s) : Inv c (clearFault s) :=
  { h with stageAgrees := List.mem_singleton_self _, faultDone := fun halted => absurd rfl halted }

theorem Inv.writeReg (h : Inv c s) (r : Reg) (v : Word) : Inv c (writeReg r v s) := by
  cases r
  case status => exact h.clearFault
  all_goals exact { h with }

theorem Inv.writeSample (h : Inv c s) (sp : SampleSpace) (i : Nat) (v : Sample) : Inv c (writeSample c sp i v s) := by
  unfold Machine.writeSample
  split
  next hi =>
    cases sp with
    | xmem => exact { h with xmemOk := h.xmemOk.store hi v }
    | ymem => exact h
    | hmem => exact { h with hmemOk := h.hmemOk.store hi v }
    | rmem => exact { h with rmemOk := h.rmemOk.store hi v }
  next => exact h

theorem Inv.writeBit (h : Inv c s) (i : Nat) (v : Bool) : Inv c (writeBit c i v s) := by
  unfold Machine.writeBit
  split
  next hi => exact { h with bmemOk := h.bmemOk.store hi v }
  next => exact h

theorem Inv.writeByte (h : Inv c s) (i : Nat) (v : Byte) : Inv c (writeByte c i v s) := by
  unfold Machine.writeByte
  split
  next hi => exact { h with fmemOk := h.fmemOk.store hi v }
  next => exact h

theorem Inv.hostRead (h : Inv c s) (sp : Space) (i : Nat) : Inv c (hostRead c sp i s) := by
  unfold Machine.hostRead
  split
  · exact { h with }
  · split <;> exact { h with }

theorem Inv.hostAccess (h : Inv c s) (a : HostAccess) : Inv c (hostAccess c a s) := by
  have not_busy : ¬ s.status.busy = true := by simp [h.idle]
  cases a with
  | read sp i => exact h.hostRead sp i
  | writeReg n v =>
    simp only [Machine.hostAccess, if_neg not_busy]
    split
    · exact h.writeReg _ v
    · exact h
  | writeSample sp i v => simpa only [Machine.hostAccess, if_neg not_busy] using h.writeSample sp i v
  | writeBit i v => simpa only [Machine.hostAccess, if_neg not_busy] using h.writeBit i v
  | writeByte i v => simpa only [Machine.hostAccess, if_neg not_busy] using h.writeByte i v
  | reset => exact { inv_reset c with }

/-! ### While an operation runs -/

/-- What every stage of an operation finds and leaves: no fault latched, and the clauses of `Inv` about result registers and
memories. BUSY, DONE and STAGE are free: they are set for the host only when the operation ends (R60). -/
structure Running (c : Config) (s : State) : Prop where
  noFault : s.status.err = none
  ylenFits : s.ylen.toNat ≤ c.nMax
  syncFits : s.sync.toNat ≤ c.nMax
  csumRange : s.csum.toNat ≤ 254
  xmemOk : MemoryOk c.nMax s.xmem
  ymemOk : MemoryOk c.nMax s.ymem
  hmemOk : MemoryOk nTaps s.hmem
  rmemOk : MemoryOk c.rMax s.rmem
  bmemOk : MemoryOk c.bMax s.bmem
  fmemOk : MemoryOk c.fMax s.fmem

/-- How the stages of an operation may end: every one kept `Running`, and a fault was raised in a stage that can raise it. -/
def Run.Ok (c : Config) : Run → Prop
  | .done s => Running c s
  | .faulted code s => Running c s ∧ s.stage ∈ stagesOf (some code)

theorem Inv.running_acceptCommand (h : Inv c s) (noFault : s.status.err = none) (w : Word) :
    Running c (acceptCommand w s) :=
  { h with noFault }

theorem Running.enterStage (h : Running c s) (st : Stage) : Running c (enterStage st s) := { h with }

theorem Running.clearValid (h : Running c s) : Running c (clearValid s) := { h with }

/-- A stage that faults has done nothing but enter itself (R99). -/
theorem Running.faulted_ok (h : Running c s) {st : Stage} {code : FaultCode} (hst : st ∈ stagesOf (some code)) :
    (Run.faulted code (Machine.enterStage st s)).Ok c :=
  ⟨h.enterStage st, hst⟩

theorem Running.inv_complete (h : Running c s) : Inv c (complete s) :=
  { h with
    idle := rfl
    stageAgrees := by simp [h.noFault, stagesOf]
    faultDone := fun _ => rfl }

theorem Running.inv_raiseFault (h : Running c s) {code : FaultCode} (hst : s.stage ∈ stagesOf (some code)) :
    Inv c (raiseFault code s) :=
  { h with
    idle := rfl
    stageAgrees := by
      rw [raiseFault_stage]
      split
      next hc => subst hc; exact List.mem_singleton_self _
      next => exact hst
    faultDone := fun _ => rfl }

theorem Run.Ok.inv_finish {r : Run} {t : State} (h : r.Ok c) (ht : r.finish = .next t) : Inv c t := by
  cases r with
  | done s =>
    cases ht
    exact h.inv_complete
  | faulted code s =>
    cases ht
    obtain ⟨running, hst⟩ := h
    exact running.inv_raiseFault hst

theorem Run.Ok.andThen {r : Run} {next : State → Run} (h : r.Ok c) (hn : ∀ s, Running c s → (next s).Ok c) :
    (r.andThen next).Ok c := by
  cases r with
  | done s => exact hn s h
  | faulted code s => exact h

/-! ### What the stages store -/

theorem Running.storeFiltered (h : Running c s) (hx : s.xlen.toNat ≤ c.nMax) : Running c (storeFiltered c s) :=
  { h with ylenFits := hx, ymemOk := h.ymemOk.storeUpTo _ hx }

theorem Running.storeSync (h : Running c s) (src : Src) (hn : srcLength src s ≤ c.nMax)
    (hl : s.rlen.toNat ≤ srcLength src s) : Running c (storeSync c src s) :=
  { h with
    syncFits := by
      rw [storeSync_sync, storeSync_toNat c s src hl]
      exact (syncOffset_bounds c s src hl).2.trans hn }

theorem Running.storeBits (h : Running c s) (src : Src) (start : Nat) {nb : Nat} (hn : nb ≤ c.bMax) :
    Running c (storeBits c src start nb s) :=
  { h with bmemOk := h.bmemOk.demodLoop _ _ ((bitsProduced_le _ _ _ _).trans hn) }

theorem Running.storeFrame (h : Running c s) (hb : s.bitcnt.toNat ≤ c.bMax) : Running c (storeFrame c s) :=
  { h with fmemOk := h.fmemOk.storeUpTo _ (c.fMax_eq ▸ Nat.div_le_div_right hb) }

theorem Running.storeValid (h : Running c s) : Running c (storeValid c s) := { h with }

theorem Running.storeChecksum (h : Running c s) : Running c (storeChecksum c s) :=
  { h with
    csumRange := by
      have := frameChecksum_lt c s
      rw [storeChecksum_csum, BitVec.toNat_ofNat]
      omega }

/-! ### The stages -/

theorem Running.filterStage_ok (h : Running c s) : (filterStage c s).Ok c := by
  rcases filterStage_cases c s with ⟨_, e⟩ | ⟨⟨_, hx⟩, e⟩ <;> rw [e]
  · exact h.faulted_ok (by decide)
  · exact (h.enterStage _).storeFiltered hx

theorem Running.syncStage_ok (h : Running c s) (src : Src) : (syncStage c src s).Ok c := by
  rcases syncStage_cases c s src with ⟨_, e⟩ | ⟨⟨_, hn⟩, ⟨_, e⟩ | ⟨⟨_, _, hl⟩, e⟩⟩ <;> rw [e]
  · exact h.faulted_ok (by decide)
  · exact h.faulted_ok (by decide)
  · rw [← srcLength_enterStage s src .sync] at hn hl
    exact (h.enterStage _).storeSync src hn hl

theorem Running.demodStage_ok (h : Running c s) (src : Src) (start nb : Nat) : (demodStage c src start nb s).Ok c := by
  rcases demodStage_cases c s src start nb with
    ⟨_, e⟩ | ⟨_, ⟨_, e⟩ | ⟨_, ⟨_, e⟩ | ⟨_, ⟨_, e⟩ | ⟨hn, e⟩⟩⟩⟩ <;> rw [e]
  · exact h.faulted_ok (by decide)
  · exact h.faulted_ok (by decide)
  · exact h.faulted_ok (by decide)
  · exact h.faulted_ok (by decide)
  · exact (h.enterStage _).storeBits src start hn

theorem Running.packStage_ok (h : Running c s) : (packStage c s).Ok c := by
  rcases packStage_cases c s with ⟨_, e⟩ | ⟨hb, e⟩ <;> rw [e]
  · exact h.faulted_ok (by decide)
  · exact (h.enterStage _).storeFrame hb

theorem Running.checkStage_ok (h : Running c s) : (checkStage c s).Ok c := by
  rcases checkStage_cases c s with ⟨_, e⟩ | ⟨_, e⟩ <;> rw [e]
  · exact h.faulted_ok (by decide)
  · exact (h.enterStage _).storeValid

theorem Running.csgenStage_ok (h : Running c s) : (csgenStage c s).Ok c := by
  rcases csgenStage_cases c s with ⟨_, e⟩ | ⟨_, ⟨_, e⟩ | ⟨_, e⟩⟩ <;> rw [e]
  · exact h.faulted_ok (by decide)
  · exact h.faulted_ok (by decide)
  · exact (h.enterStage _).storeChecksum

theorem Running.decodeStages_ok (h : Running c s) : (decodeStages c s).Ok c :=
  h.filterStage_ok.andThen fun _ h1 =>
  (h1.syncStage_ok .y).andThen fun _ h2 =>
  (h2.demodStage_ok .y _ payloadBits).andThen fun _ h3 =>
  h3.packStage_ok.andThen fun _ h4 => h4.checkStage_ok

end

/-! ### Commands and the step -/

theorem Running.inv_exec {s t : State} (h : Running Config.hw s) (i : Instr) (ht : exec i s = .next t) :
    Inv Config.hw t := by
  cases i with
  | bandpass => exact h.filterStage_ok.inv_finish ht
  | findSync src => exact (h.syncStage_ok src).inv_finish ht
  | demod src => exact (h.demodStage_ok src _ _).inv_finish ht
  | pack => exact h.packStage_ok.inv_finish ht
  | check => exact h.clearValid.checkStage_ok.inv_finish ht
  | csgen => exact h.csgenStage_ok.inv_finish ht
  | decode => exact h.clearValid.decodeStages_ok.inv_finish ht

theorem Inv.writeCommand {s t : State} (h : Inv Config.hw s) (w : Word) (ht : writeCommand w s = .next t) :
    Inv Config.hw t := by
  rcases writeCommand_cases w s with ⟨_, e⟩ | ⟨⟨_, noFault⟩, ⟨i, _, e⟩ | ⟨_, _, e⟩⟩ <;> rw [e] at ht
  · cases ht
    exact h
  · exact (h.running_acceptCommand noFault w).inv_exec i ht
  · cases ht
    have idle_stage : s.stage ∈ stagesOf (some .illegalCmd) := by simpa [noFault, stagesOf] using h.stageAgrees
    exact (h.running_acceptCommand noFault w).inv_raiseFault idle_stage

/-- Settles O43: every clause is about values that reset sets, or about memories with nothing written. -/
theorem resetMeetsTheInvariant : Obligations.ResetMeetsTheInvariant := inv_reset Config.hw

/-- Settles O44, by the three things a step can do: wait, take a CMD write, take another host access. -/
theorem stepKeepsTheInvariant : Obligations.StepKeepsTheInvariant := by
  intro s t h ht
  have taken (rest : List HostAccess) : Inv Config.hw { s with pending := rest } := { h with }
  rcases step_cases ht with ⟨_, rfl⟩ | ⟨w, rest, _, hw⟩ | ⟨a, rest, _, _, rfl⟩
  · exact h
  · exact (taken rest).writeCommand w hw
  · exact (taken rest).hostAccess a

end Sys2Proof.Machine

/-! ## The state as the host sees it, and what an operation does with VALID, SYNC and its own results

First how the registers read and what a host access does (R14, R26, R27, R42, R43). Then three facts of operations: all but
CHECK and DECODE commute with a change of VALID (R29); a search that completes leaves SYNC within the waveform (R77); an
operation run again stores the results that stand already, so it changes nothing (R37). -/

namespace Sys2Proof.Machine

section

variable {c : Config} {s t u : State}

/-! ### The words of STATUS, CFG and STAGE -/

/-- STATUS bit by bit (R26): above the three flags and the reserved bit 3, bit `i` is bit `i - 4` of ERR, 0 from 8 on. -/
theorem getLsbD_statusWord (r : StatusReg) (i : Nat) :
    (statusWord r).getLsbD i =
      if i = 0 then r.busy else if i = 1 then r.done else if i = 2 then r.valid else if i = 3 then false
      else (errNumber r.err).getLsbD (i - 4) := by
  rw [statusWord, BitVec.getLsbD_append, BitVec.getLsbD_append, BitVec.getLsbD_append, BitVec.getLsbD_append,
    BitVec.getLsbD_append]
  rcases i with _ | _ | _ | _ | i
  case succ.succ.succ.succ => simpa using fun h => BitVec.lt_of_getLsbD h
  all_goals simp

theorem getLsbD_cfgWord (r : CfgReg) (i : Nat) :
    (cfgWord r).getLsbD i = if i = 0 then r.initBit else if i = 1 then r.mode.bit else false := by
  rw [cfgWord, BitVec.getLsbD_append, BitVec.getLsbD_append]
  rcases i with _ | _ | i <;> simp

/-- Bits 7:4 of STATUS are ERR (R26). -/
theorem statusWord_err (r : StatusReg) : (statusWord r).extractLsb' 4 4 = errNumber r.err := by
  apply BitVec.eq_of_getLsbD_eq
  intro i hi
  rw [BitVec.getLsbD_extractLsb', getLsbD_statusWord]
  simp [hi, show 4 + i ≠ 0 ∧ 4 + i ≠ 1 ∧ 4 + i ≠ 2 ∧ 4 + i ≠ 3 by omega]

/-- Bits 31:8 of STATUS are reserved (R26). -/
theorem statusWord_reserved (r : StatusReg) : (statusWord r).extractLsb' 8 24 = 0 := by
  apply BitVec.eq_of_getLsbD_eq
  intro i hi
  rw [BitVec.getLsbD_extractLsb', getLsbD_statusWord]
  have above_err : (errNumber r.err).getLsbD (8 + i - 4) = false := BitVec.getLsbD_of_ge _ _ (by omega)
  simp [show 8 + i ≠ 0 ∧ 8 + i ≠ 1 ∧ 8 + i ≠ 2 ∧ 8 + i ≠ 3 by omega, above_err]

/-- Bits 31:2 of CFG are reserved (R27). -/
theorem cfgWord_reserved (r : CfgReg) : (cfgWord r).extractLsb' 2 30 = 0 := by
  apply BitVec.eq_of_getLsbD_eq
  intro i hi
  rw [BitVec.getLsbD_extractLsb', getLsbD_cfgWord]
  simp [show 2 + i ≠ 0 ∧ 2 + i ≠ 1 by omega]

theorem Mode.bit_eq_true_iff (m : Mode) : m.bit = true ↔ m = .absolutePhase := by
  cases m <;> decide

theorem Mode.ofBit_eq_absolutePhase_iff (b : Bool) : Mode.ofBit b = .absolutePhase ↔ b = true := by
  cases b <;> decide

/-! ### Host reads and register writes -/

theorem hostRead_frame (sp : Space) (i : Nat) (s : State) :
    hostRead c sp i s =
      { s with lastRead := (hostRead c sp i s).lastRead, draws := (hostRead c sp i s).draws } := by
  unfold hostRead
  split
  · rfl
  · split <;> rfl

/-- An element in range is answered with its value (R42). -/
theorem hostRead_lastRead {sp : Space} {i : Nat} {v : HostValue} (idle : Idle s) (hv : answerIdle c s sp i = some v) :
    (hostRead c sp i s).lastRead = some v := by
  simp [hostRead, idle, hv]

theorem hostAccess_writeReg_named {n : Nat} {r : Reg} (idle : Idle s) (hr : Reg.ofNumber n = some r) (v : Word) :
    hostAccess c (.writeReg n v) s = writeReg r v s := by
  simp [hostAccess, idle, hr]

/-- A number that names no register is ignored (R43). -/
theorem hostAccess_writeReg_unnamed {n : Nat} (hr : Reg.ofNumber n = none) (v : Word) :
    hostAccess c (.writeReg n v) s = s := by
  simp [hostAccess, hr]

/-- The registers by number, with what each reads as (R14). -/
theorem answerIdle_reg_table :
    ∀ p ∈ [(0, s.cmd), (1, readReg s .status), (2, readReg s .cfg), (3, s.xlen), (4, s.ylen), (5, s.rlen), (6, s.chunk),
        (7, s.start), (8, s.nbits), (9, s.sync), (10, s.bitcnt), (11, s.flen), (12, s.csum), (13, readReg s .stage)],
      answerIdle c s .reg p.1 = some (.word p.2) := by
  simp [answerIdle, Reg.ofNumber, readReg]

/-! ### VALID as an input -/

/-- The state with VALID as `b`. -/
def withValid (b : Bool) (s : State) : State := { s with status := { s.status with valid := b } }

/-- The same run from a state in which VALID is `b`, if no stage looks at VALID. -/
def Run.withValid (b : Bool) : Run → Run
  | .done s => .done (Machine.withValid b s)
  | .faulted code s => .faulted code (Machine.withValid b s)

theorem clearValid_withValid (b : Bool) : clearValid (withValid b s) = clearValid s := rfl

theorem Run.finish_withValid {r r' : Run} {b : Bool} (e : r' = r.withValid b) (h : r.finish = .next t) :
    r'.finish = .next (Machine.withValid b t) := by
  subst e
  cases r <;> cases h <;> rfl

theorem filterStage_withValid (b : Bool) : filterStage c (withValid b s) = (filterStage c s).withValid b := by
  rw [filterStage, filterStage, apply_ite (Run.withValid b)]
  rfl

theorem syncStage_withValid (src : Src) (b : Bool) :
    syncStage c src (withValid b s) = (syncStage c src s).withValid b := by
  rw [syncStage, syncStage, apply_ite (Run.withValid b), apply_ite (Run.withValid b)]
  cases src <;> rfl

theorem demodStage_withValid (src : Src) (start nb : Nat) (b : Bool) :
    demodStage c src start nb (withValid b s) = (demodStage c src start nb s).withValid b := by
  simp only [demodStage, apply_ite (Run.withValid b)]
  cases src <;> rfl

theorem packStage_withValid (b : Bool) : packStage c (withValid b s) = (packStage c s).withValid b := by
  simp only [packStage, apply_ite (Run.withValid b)]
  rfl

theorem csgenStage_withValid (b : Bool) : csgenStage c (withValid b s) = (csgenStage c s).withValid b := by
  simp only [csgenStage, apply_ite (Run.withValid b)]
  rfl

/-- No operation but CHECK and DECODE looks at VALID (R29). -/
theorem exec_withValid {i : Instr} (hc : i ≠ .check) (hd : i ≠ .decode) (b : Bool) (h : exec i s = .next t) :
    exec i (withValid b s) = .next (withValid b t) := by
  cases i with
  | bandpass => exact Run.finish_withValid (filterStage_withValid b) h
  | findSync src => exact Run.finish_withValid (syncStage_withValid src b) h
  | demod src => exact Run.finish_withValid (demodStage_withValid src _ _ b) h
  | pack => exact Run.finish_withValid (packStage_withValid b) h
  | csgen => exact Run.finish_withValid (csgenStage_withValid b) h
  | check => exact absurd rfl hc
  | decode => exact absurd rfl hd

/-- An operation that does not look at VALID does not write it: it takes the state to itself with VALID put back. -/
theorem exec_valid {i : Instr} (hc : i ≠ .check) (hd : i ≠ .decode) (h : exec i s = .next t) :
    t.status.valid = s.status.valid := by
  have h' : exec i s = .next (withValid s.status.valid t) := exec_withValid hc hd s.status.valid h
  have ht : t = withValid s.status.valid t := Host.Outcome.next.inj (h.symm.trans h')
  rw [ht]
  rfl

/-- CHECK and DECODE clear VALID before they look at anything (R29, R60). -/
theorem exec_withValid_of_clears {i : Instr} (hi : i = .check ∨ i = .decode) (b : Bool) :
    exec i (withValid b s) = exec i s := by
  rcases hi with rfl | rfl
  · rw [exec_check, exec_check, clearValid_withValid]
  · rw [exec_decode, exec_decode, clearValid_withValid]

/-- A CHECK that faults leaves VALID as it found it after clearing it (R29). -/
theorem exec_check_valid_of_fault (noFault : s.status.err = none) (h : exec .check s = .next t)
    (fault : t.status.err ≠ none) : t.status.valid = false := by
  rcases checkStage_cases Config.hw (clearValid s) with ⟨_, e⟩ | ⟨_, e⟩ <;> rw [exec_check, e] at h <;> cases h
  · rfl
  · exact absurd noFault fault

/-- A DECODE that faults has not come to its last stage, the only one that writes VALID (R29). -/
theorem exec_decode_valid_of_fault (noFault : s.status.err = none) (h : exec .decode s = .next t)
    (fault : t.status.err ≠ none) : t.status.valid = false := by
  rcases decodeStages_cases Config.hw (clearValid s) with ⟨_, e⟩ | ⟨_, ⟨_, e⟩ | ⟨_, ⟨_, e⟩ | ⟨_, ⟨_, e⟩ | ⟨_, e⟩⟩⟩⟩ <;>
    rw [exec_decode, e] at h <;> cases h
  · rfl
  · rfl
  · rfl
  · rfl
  · exact absurd noFault fault

/-! ### When a stage completes, and with what -/

/-- An operation that leaves no fault latched ran every stage to its end. -/
theorem Run.done_of_finish {r : Run} (h : r.finish = .next t) (noFault : t.status.err = none) :
    ∃ u, r = .done u ∧ t = complete u := by
  cases r with
  | done u => exact ⟨u, rfl, (Host.Outcome.next.inj h).symm⟩
  | faulted code u =>
    cases h
    cases noFault

theorem filterStage_done_iff :
    filterStage c s = .done u ↔
      (1 ≤ s.xlen.toNat ∧ s.xlen.toNat ≤ c.nMax) ∧ storeFiltered c (enterStage .filter s) = u := by
  rcases filterStage_cases c s with ⟨bad, e⟩ | ⟨good, e⟩ <;> rw [e]
  · exact iff_of_false nofun (by omega)
  · simp [good]

theorem syncStage_done_iff {src : Src} :
    syncStage c src s = .done u ↔
      ((1 ≤ srcLength src s ∧ srcLength src s ≤ c.nMax) ∧
        1 ≤ s.rlen.toNat ∧ s.rlen.toNat ≤ c.rMax ∧ s.rlen.toNat ≤ srcLength src s) ∧
      storeSync c src (enterStage .sync s) = u := by
  rcases syncStage_cases c s src with ⟨bad, e⟩ | ⟨good, ⟨bad, e⟩ | ⟨good', e⟩⟩ <;> rw [e]
  · exact iff_of_false nofun (by omega)
  · exact iff_of_false nofun (by omega)
  · simp [good, good']

theorem demodStage_done_iff {src : Src} {a n : Nat} :
    demodStage c src a n s = .done u ↔
      (s.cfg.mode = .differential ∧ (1 ≤ srcLength src s ∧ srcLength src s ≤ c.nMax) ∧ 2 ≤ s.chunk.toNat ∧ n ≤ c.bMax) ∧
      storeBits c src a n (enterStage .demod s) = u := by
  rcases demodStage_cases c s src a n with
    ⟨bad, e⟩ | ⟨mode, ⟨bad, e⟩ | ⟨length, ⟨bad, e⟩ | ⟨chunk, ⟨bad, e⟩ | ⟨count, e⟩⟩⟩⟩ <;> rw [e]
  · exact iff_of_false nofun (by simp [bad])
  · exact iff_of_false nofun (by omega)
  · exact iff_of_false nofun (by omega)
  · exact iff_of_false nofun (by omega)
  · simp [mode, length, chunk, count]

theorem packStage_done_iff :
    packStage c s = .done u ↔ s.bitcnt.toNat ≤ c.bMax ∧ storeFrame c (enterStage .pack s) = u := by
  rcases packStage_cases c s with ⟨bad, e⟩ | ⟨good, e⟩ <;> rw [e]
  · exact iff_of_false nofun (by omega)
  · simp [good]

theorem checkStage_done_iff :
    checkStage c s = .done u ↔ s.flen.toNat ≤ c.fMax ∧ storeValid c (enterStage .check s) = u := by
  rcases checkStage_cases c s with ⟨bad, e⟩ | ⟨good, e⟩ <;> rw [e]
  · exact iff_of_false nofun (by omega)
  · simp [good]

theorem csgenStage_done_iff :
    csgenStage c s = .done u ↔
      (3 ≤ s.flen.toNat ∧ s.flen.toNat ≤ c.fMax) ∧ storeChecksum c (enterStage .csgen s) = u := by
  rcases csgenStage_cases c s with ⟨bad, e⟩ | ⟨good, ⟨bad, e⟩ | ⟨good', e⟩⟩ <;> rw [e]
  · exact iff_of_false nofun (by omega)
  · exact iff_of_false nofun (by omega)
  · simp [good, good']

theorem decodeStages_done_iff :
    decodeStages c s = .done u ↔
      ((1 ≤ s.xlen.toNat ∧ s.xlen.toNat ≤ c.nMax) ∧
        (1 ≤ s.rlen.toNat ∧ s.rlen.toNat ≤ c.rMax ∧ s.rlen.toNat ≤ s.xlen.toNat) ∧
        s.cfg.mode = .differential ∧ 2 ≤ s.chunk.toNat) ∧
      afterCheck c s = u := by
  rcases decodeStages_cases c s with
    ⟨bad, e⟩ | ⟨length, ⟨bad, e⟩ | ⟨reference, ⟨bad, e⟩ | ⟨mode, ⟨bad, e⟩ | ⟨chunk, e⟩⟩⟩⟩ <;> rw [e]
  · exact iff_of_false nofun (by omega)
  · exact iff_of_false nofun (by omega)
  · exact iff_of_false nofun (by simp [bad])
  · exact iff_of_false nofun (by omega)
  · simp [length, reference, mode, chunk]

@[simp] theorem srcLength_complete (src : Src) : srcLength src (complete s) = srcLength src s := by
  cases src <;> rfl

@[simp] theorem srcLength_storeSync (src src' : Src) : srcLength src (storeSync c src' s) = srcLength src s := by
  cases src <;> rfl

@[simp] theorem srcLength_storeBits (src src' : Src) (a n : Nat) :
    srcLength src (storeBits c src' a n s) = srcLength src s := by
  cases src <;> rfl

/-! ### Storing results that stand already (R37)

`t` has the inputs a stage read in `s`, and holds the results it stored: storing them again changes nothing. -/

theorem storeFiltered_of_results (hx : t.xmem = s.xmem) (hh : t.hmem = s.hmem) (he : t.epoch = s.epoch)
    (hl : t.xlen = s.xlen) (wf : Memory.wf s.ymem) (hm : t.ymem = (storeFiltered c s).ymem)
    (hn : t.ylen = (storeFiltered c s).ylen) : storeFiltered c t = t := by
  rw [storeFiltered_ymem] at hm
  apply storeFiltered_self
  · exact hm ▸ Memory.storeUpTo_wf _ _ wf _
  · exact hn.trans hl.symm
  · intro j hj
    rw [hl] at hj
    rw [hm, Memory.lookup_storeUpTo, if_pos hj, filterSample_congr c hx hh he, hl]

theorem syncOffset_eq_of_inputs {src : Src} (hr : readSample c t = readSample c s) (hl : t.rlen = s.rlen)
    (hn : srcLength src t = srcLength src s) : syncOffset c src t = syncOffset c src s := by
  have corr : correlation c src t = correlation c src s := by
    funext j
    simp only [correlation, waveform, reference, hr, hl]
  simp only [syncOffset, corr, hn, hl]

theorem storeSync_of_results {src : Src} (hr : readSample c t = readSample c s) (hl : t.rlen = s.rlen)
    (hn : srcLength src t = srcLength src s) (hs : t.sync = (storeSync c src s).sync) : storeSync c src t = t := by
  rw [storeSync_sync, ← syncOffset_eq_of_inputs hr hl hn] at hs
  rw [storeSync, ← hs]

theorem reversal_eq_of_inputs {src : Src} (hr : readSample c t = readSample c s) :
    reversal c src t = reversal c src s := by
  funext cs start m
  simp only [reversal, chunkProduct, waveform, hr]

theorem storeBits_of_results {src : Src} {a n : Nat} (hr : readSample c t = readSample c s)
    (hn : srcLength src t = srcLength src s) (hc : t.chunk = s.chunk) (hg : t.cfg = s.cfg) (wf : Memory.wf s.bmem)
    (hm : t.bmem = (storeBits c src a n s).bmem) (hk : t.bitcnt = (storeBits c src a n s).bitcnt) :
    storeBits c src a n t = t := by
  rw [storeBits_bmem] at hm
  rw [storeBits_bitcnt] at hk
  apply storeBits_self
  · exact hm ▸ demodLoop_wf _ _ _ wf _
  · rw [hk, hn, hc]
  · intro j hj
    rw [hn, hc] at hj
    rw [hm, lookup_demodLoop, if_pos hj, reversal_eq_of_inputs hr, hc, hg, demodLoop_fst_mem]

theorem storeFrame_of_results (hb : t.bmem = s.bmem) (he : t.epoch = s.epoch) (hl : t.bitcnt = s.bitcnt)
    (wf : Memory.wf s.fmem) (hm : t.fmem = (storeFrame c s).fmem) (hn : t.flen = (storeFrame c s).flen) :
    storeFrame c t = t := by
  rw [storeFrame_fmem] at hm
  apply storeFrame_self
  · exact hm ▸ Memory.storeUpTo_wf _ _ wf _
  · rw [hn, hl, storeFrame_flen]
  · intro j hj
    rw [hl] at hj
    rw [hm, Memory.lookup_storeUpTo, if_pos hj, packedByte_congr c hb he]

/-! ### The second run of DECODE -/

/-- `t` has the inputs of DECODE as `s` has them, and holds what the five stages left from `s`, field by field. -/
structure HoldsDecoded (c : Config) (s t : State) : Prop where
  xmem : t.xmem = s.xmem
  hmem : t.hmem = s.hmem
  rmem : t.rmem = s.rmem
  epoch : t.epoch = s.epoch
  cfg : t.cfg = s.cfg
  xlen : t.xlen = s.xlen
  rlen : t.rlen = s.rlen
  chunk : t.chunk = s.chunk
  ymem : t.ymem = (afterFilter c s).ymem
  ylen : t.ylen = (afterFilter c s).ylen
  sync : t.sync = (afterSync c s).sync
  bmem : t.bmem = (afterDemod c s).bmem
  bitcnt : t.bitcnt = (afterDemod c s).bitcnt
  fmem : t.fmem = (afterPack c s).fmem
  flen : t.flen = (afterPack c s).flen

theorem holdsDecoded_complete : HoldsDecoded c (clearValid s) (clearValid (complete (afterCheck c (clearValid s)))) := by
  constructor <;> simp [afterCheck, afterPack, afterDemod, afterSync, afterFilter]

theorem enterStage_enterStage (a b : Stage) : enterStage a (enterStage b s) = enterStage a s := rfl

section

variable (h : HoldsDecoded c s t)
include h

theorem HoldsDecoded.readSample_eq : readSample c t = readSample c (afterFilter c s) :=
  readSample_congr_all c h.xmem h.ymem h.hmem h.rmem h.epoch

theorem HoldsDecoded.srcLength_eq : srcLength .y t = srcLength .y (afterFilter c s) :=
  congrArg BitVec.toNat h.ylen

theorem HoldsDecoded.afterFilter_eq (ywf : Memory.wf s.ymem) : afterFilter c t = enterStage .filter t :=
  storeFiltered_of_results (s := enterStage .filter s) h.xmem h.hmem h.epoch h.xlen ywf h.ymem h.ylen

theorem HoldsDecoded.afterSync_eq (ywf : Memory.wf s.ymem) : afterSync c t = enterStage .sync t := by
  rw [afterSync, h.afterFilter_eq ywf, enterStage_enterStage]
  refine storeSync_of_results (s := enterStage .sync (afterFilter c s)) ?_ h.rlen h.srcLength_eq h.sync
  simpa using h.readSample_eq

theorem HoldsDecoded.afterDemod_eq (ywf : Memory.wf s.ymem) (bwf : Memory.wf s.bmem) :
    afterDemod c t = enterStage .demod t := by
  rw [afterDemod, h.afterSync_eq ywf, enterStage_enterStage, enterStage_sync, h.sync]
  refine storeBits_of_results (s := enterStage .demod (afterSync c s)) ?_ h.srcLength_eq h.chunk h.cfg bwf h.bmem h.bitcnt
  simpa [afterSync] using h.readSample_eq

theorem HoldsDecoded.afterPack_eq (ywf : Memory.wf s.ymem) (bwf : Memory.wf s.bmem) (fwf : Memory.wf s.fmem) :
    afterPack c t = enterStage .pack t := by
  rw [afterPack, h.afterDemod_eq ywf bwf, enterStage_enterStage]
  refine storeFrame_of_results (s := enterStage .pack (afterDemod c s)) ?_ ?_ ?_ ?_ h.fmem h.flen
  · simpa using h.bmem
  · simpa [afterDemod, afterSync, afterFilter] using h.epoch
  · simpa using h.bitcnt
  · simpa [afterDemod, afterSync, afterFilter] using fwf

end

/-! ### The second run of an operation -/

/-- Storing VALID for the frame that gave it, after clearing it, puts it back (R88). -/
theorem storeValid_clearValid_complete (v : State) (hv : v.status.valid = false) :
    storeValid c (enterStage .check (clearValid (complete (storeValid c (enterStage .check v))))) =
      enterStage .check (complete (storeValid c (enterStage .check v))) := by
  have frame : framePasses c (enterStage .check (clearValid (complete (storeValid c (enterStage .check v))))) =
      framePasses c (enterStage .check v) := framePasses_congr c rfl rfl rfl
  rw [storeValid, frame]
  simp [hv, enterStage, complete, storeValid, clearValid]

/-- An operation whose stages, run again on the state it left, end with nothing changed but STAGE, changes nothing when
run again: its end sets STAGE, BUSY and DONE as they are. -/
theorem Run.finish_repeats {stages : State → Run} {st : Stage} (h : (stages s).finish = .next t)
    (noFault : t.status.err = none)
    (again : ∀ u, stages s = .done u → stages (complete u) = .done (enterStage st (complete u))) :
    (stages t).finish = .next t := by
  obtain ⟨u, hu, rfl⟩ := Run.done_of_finish h noFault
  rw [again u hu]
  rfl

theorem filterStage_again (ywf : Memory.wf s.ymem) (h : filterStage c s = .done u) :
    filterStage c (complete u) = .done (enterStage .filter (complete u)) := by
  obtain ⟨guard, rfl⟩ := filterStage_done_iff.1 h
  exact filterStage_done_iff.2 ⟨guard,
    storeFiltered_of_results (s := enterStage .filter s) rfl rfl rfl rfl ywf rfl rfl⟩

theorem syncStage_again {src : Src} (h : syncStage c src s = .done u) :
    syncStage c src (complete u) = .done (enterStage .sync (complete u)) := by
  obtain ⟨guard, rfl⟩ := syncStage_done_iff.1 h
  exact syncStage_done_iff.2 ⟨by simpa using guard,
    storeSync_of_results (s := enterStage .sync s) (by simp) rfl (by simp) rfl⟩

theorem demodStage_again {src : Src} (bwf : Memory.wf s.bmem)
    (h : demodStage c src s.start.toNat s.nbits.toNat s = .done u) :
    demodStage c src (complete u).start.toNat (complete u).nbits.toNat (complete u) =
      .done (enterStage .demod (complete u)) := by
  obtain ⟨guard, rfl⟩ := demodStage_done_iff.1 h
  exact demodStage_done_iff.2 ⟨by simpa using guard,
    storeBits_of_results (s := enterStage .demod s) (by simp) (by simp) rfl rfl bwf rfl rfl⟩

theorem packStage_again (fwf : Memory.wf s.fmem) (h : packStage c s = .done u) :
    packStage c (complete u) = .done (enterStage .pack (complete u)) := by
  obtain ⟨guard, rfl⟩ := packStage_done_iff.1 h
  exact packStage_done_iff.2 ⟨guard, storeFrame_of_results (s := enterStage .pack s) rfl rfl rfl fwf rfl rfl⟩

theorem csgenStage_again (h : csgenStage c s = .done u) :
    csgenStage c (complete u) = .done (enterStage .csgen (complete u)) := by
  obtain ⟨guard, rfl⟩ := csgenStage_done_iff.1 h
  exact csgenStage_done_iff.2 ⟨guard, rfl⟩

theorem checkStage_again (h : checkStage c (clearValid s) = .done u) :
    checkStage c (clearValid (complete u)) = .done (enterStage .check (complete u)) := by
  obtain ⟨guard, rfl⟩ := checkStage_done_iff.1 h
  exact checkStage_done_iff.2 ⟨guard, storeValid_clearValid_complete _ rfl⟩

theorem decodeStages_again (ywf : Memory.wf s.ymem) (bwf : Memory.wf s.bmem) (fwf : Memory.wf s.fmem)
    (h : decodeStages c (clearValid s) = .done u) :
    decodeStages c (clearValid (complete u)) = .done (enterStage .check (complete u)) := by
  obtain ⟨guard, rfl⟩ := decodeStages_done_iff.1 h
  have holds := holdsDecoded_complete (c := c) (s := s)
  refine decodeStages_done_iff.2 ⟨by rwa [holds.xlen, holds.rlen, holds.cfg, holds.chunk], ?_⟩
  rw [afterCheck, holds.afterPack_eq ywf bwf fwf, enterStage_enterStage]
  exact storeValid_clearValid_complete _ rfl

end

/-! ### The statements -/

/-- Settles O39, bit by bit, and code by code for ERR. -/
theorem statusWordLayout : Obligations.StatusWordLayout := by
  intro s
  refine ⟨getLsbD_statusWord _ 0, getLsbD_statusWord _ 1, getLsbD_statusWord _ 2, getLsbD_statusWord _ 3,
    statusWord_reserved _, (statusWord_err _).trans ?_⟩
  rcases s.status.err with _ | code
  · rfl
  · cases code <;> rfl

/-- Settles O45, bit by bit for CFG, stage by stage for STAGE. -/
theorem cfgAndStageWords : Obligations.CfgAndStageWords := by
  intro s
  refine ⟨getLsbD_cfgWord _ 0, ?_, cfgWord_reserved _, ?_⟩
  · rw [readReg, getLsbD_cfgWord]
    exact Mode.bit_eq_true_iff _
  · rw [readReg]
    cases s.stage <;> rfl

/-- Settles O41, register by register. -/
theorem registersAfterReset : Obligations.RegistersAfterReset := by
  intro r
  cases r <;> decide

/-- Settles O36: the read touches the log of answers only, and each clause names an element in range. -/
theorem hostReadChangesNothing : Obligations.HostReadChangesNothing := by
  intro s sp i rest hp idle
  have answer {v : HostValue} (hv : answerIdle Config.hw s sp i = some v) :
      (hostRead Config.hw sp i { s with pending := rest }).lastRead = some v := hostRead_lastRead idle hv
  refine ⟨_, step_hostAccess hp nofun, hostRead_frame sp i _, ?_, ?_, ?_, ?_⟩
  · rintro w rfl hw
    exact answer (answerIdle_reg_table (i, w) hw)
  · rintro m rfl hi
    exact answer (if_pos hi)
  · rintro rfl hi
    exact answer (if_pos hi)
  · rintro rfl hi
    exact answer (if_pos hi)

/-- Settles O38, number by number. -/
theorem hostWritesToRegisters : Obligations.HostWritesToRegisters := by
  intro s n v rest hp idle hn
  have named {r : Reg} (hr : Reg.ofNumber n = some r) :
      hostAccess Config.hw (.writeReg n v) { s with pending := rest } = writeReg r v { s with pending := rest } :=
    hostAccess_writeReg_named (s := { s with pending := rest }) idle hr v
  refine ⟨_, step_hostAccess hp (by rintro w ⟨⟩; omega), ?_, ?_, ?_, ?_, ?_, ?_, ?_, ?_, ?_⟩
  · rintro rfl
    rw [named (r := .cfg) rfl]
    exact ⟨rfl, cfgWord_cfgOfWord v, rfl, Mode.ofBit_eq_absolutePhase_iff _⟩
  · rintro rfl
    exact named (r := .xlen) rfl
  · rintro rfl
    exact named (r := .rlen) rfl
  · rintro rfl
    exact named (r := .chunk) rfl
  · rintro rfl
    exact named (r := .start) rfl
  · rintro rfl
    exact named (r := .nbits) rfl
  · rintro rfl
    exact named (r := .bitcnt) rfl
  · rintro rfl
    exact named (r := .flen) rfl
  · rintro (rfl | rfl | rfl | rfl | hn)
    · exact named (r := .ylen) rfl
    · exact named (r := .sync) rfl
    · exact named (r := .csum) rfl
    · exact named (r := .stage) rfl
    · exact hostAccess_writeReg_unnamed (Reg.ofNumber_none hn) v

/-- Settles O35: CHECK and DECODE clear VALID first, the others commute with a change of VALID. -/
theorem onlyCheckAndDecodeTouchValid : Obligations.OnlyCheckAndDecodeTouchValid := by
  intro i s
  obtain ⟨t, ht⟩ := exec_next s i
  refine ⟨t, ht, fun hi => ⟨fun b => (exec_withValid_of_clears hi b).trans ht, fun noFault fault => ?_⟩,
    fun hc hd => ⟨exec_valid hc hd ht, fun b => exec_withValid hc hd b ht⟩⟩
  rcases hi with rfl | rfl
  · exact exec_check_valid_of_fault noFault ht fault
  · exact exec_decode_valid_of_fault noFault ht fault

/-- Settles O33: each operation, run again, finds its results standing. -/
theorem repeatingAnOperationChangesNothing : Obligations.RepeatingAnOperationChangesNothing := by
  intro i s t inv h noFault
  have ywf : Memory.wf s.ymem := inv.ymemOk.wf
  have bwf : Memory.wf s.bmem := inv.bmemOk.wf
  have fwf : Memory.wf s.fmem := inv.fmemOk.wf
  cases i with
  | bandpass => exact Run.finish_repeats h noFault fun _ => filterStage_again ywf
  | findSync src => exact Run.finish_repeats h noFault fun _ => syncStage_again
  | demod src =>
    exact Run.finish_repeats (stages := fun s => demodStage Config.hw src s.start.toNat s.nbits.toNat s) h noFault
      fun _ => demodStage_again bwf
  | pack => exact Run.finish_repeats h noFault fun _ => packStage_again fwf
  | check =>
    exact Run.finish_repeats (stages := fun s => checkStage Config.hw (clearValid s)) h noFault fun _ => checkStage_again
  | csgen => exact Run.finish_repeats h noFault fun _ => csgenStage_again
  | decode =>
    exact Run.finish_repeats (stages := fun s => decodeStages Config.hw (clearValid s)) h noFault
      fun _ => decodeStages_again ywf bwf fwf

/-- Settles O18: a search that completed had RLEN within the waveform, and the peak is one of its lags. -/
theorem syncLiesInTheWaveform : Obligations.SyncLiesInTheWaveform := by
  intro s t src h _ noFault
  obtain ⟨u, hu, rfl⟩ := Run.done_of_finish h noFault
  obtain ⟨⟨_, _, _, fits⟩, rfl⟩ := syncStage_done_iff.1 hu
  have fits' : (enterStage .sync s).rlen.toNat ≤ srcLength src (enterStage .sync s) := by simpa using fits
  have bounds := syncOffset_bounds Config.hw _ src fits'
  rw [complete_sync, storeSync_sync, storeSync_toNat Config.hw _ src fits']
  simpa using bounds

end Sys2Proof.Machine

/-! ## Who writes what, and the host's writes to memories

First an operation's frame (R55): every result is stored by one function, and all else an operation does is to set STATUS and
STAGE, so whatever does not look at these two is kept by an operation unless one of its stages stores into it. Then what a
host write to a memory leaves to be read (R42, R43, R49), and what a busy block does with an access (R53). -/

namespace Sys2Proof.Machine

section

variable {c : Config} {s t : State}

/-! ### What the stages of an operation keep -/

section

variable {α : Type} {f : State → α}

/-- `f` looks neither at STATUS nor at STAGE, the two registers that every operation writes (R28, R60). -/
def IgnoresControl (f : State → α) : Prop :=
  ∀ (s : State) (status : StatusReg) (stage : Stage), f { s with status, stage } = f s

/-- The state in which the stages of an operation ended, completed or faulted. -/
def Run.state : Run → State
  | .done s => s
  | .faulted _ s => s

theorem Run.keeps_andThen {r : Run} {next : State → Run} (hr : f r.state = f s)
    (hn : ∀ u, f (next u).state = f u) : f (r.andThen next).state = f s := by
  cases r with
  | done u => exact (hn u).trans hr
  | faulted code u => exact hr

theorem Run.keeps_finish (hf : IgnoresControl f) {r : Run} (h : r.finish = .next t) : f t = f r.state := by
  cases r <;> cases h <;> exact hf _ _ _

section

variable (hf : IgnoresControl f)
include hf

theorem filterStage_keeps (store : ∀ u, f (storeFiltered c u) = f u) (s : State) :
    f (filterStage c s).state = f s := by
  have enter : f (enterStage .filter s) = f s := hf s _ _
  rcases filterStage_cases c s with ⟨_, e⟩ | ⟨_, e⟩ <;> rw [e]
  · exact enter
  · exact (store _).trans enter

theorem syncStage_keeps {src : Src} (store : ∀ u, f (storeSync c src u) = f u) (s : State) :
    f (syncStage c src s).state = f s := by
  have enter : f (enterStage .sync s) = f s := hf s _ _
  rcases syncStage_cases c s src with ⟨_, e⟩ | ⟨_, ⟨_, e⟩ | ⟨_, e⟩⟩ <;> rw [e]
  · exact enter
  · exact enter
  · exact (store _).trans enter

theorem demodStage_keeps {src : Src} (store : ∀ start nb u, f (storeBits c src start nb u) = f u) (start nb : Nat)
    (s : State) : f (demodStage c src start nb s).state = f s := by
  have enter : f (enterStage .demod s) = f s := hf s _ _
  rcases demodStage_cases c s src start nb with
    ⟨_, e⟩ | ⟨_, ⟨_, e⟩ | ⟨_, ⟨_, e⟩ | ⟨_, ⟨_, e⟩ | ⟨_, e⟩⟩⟩⟩ <;> rw [e]
  · exact enter
  · exact enter
  · exact enter
  · exact enter
  · exact (store _ _ _).trans enter

theorem packStage_keeps (store : ∀ u, f (storeFrame c u) = f u) (s : State) : f (packStage c s).state = f s := by
  have enter : f (enterStage .pack s) = f s := hf s _ _
  rcases packStage_cases c s with ⟨_, e⟩ | ⟨_, e⟩ <;> rw [e]
  · exact enter
  · exact (store _).trans enter

/-- The check stage stores into STATUS only. -/
theorem checkStage_keeps (s : State) : f (checkStage c s).state = f s := by
  rcases checkStage_cases c s with ⟨_, e⟩ | ⟨_, e⟩ <;> rw [e] <;> exact hf s _ _

theorem csgenStage_keeps (store : ∀ u, f (storeChecksum c u) = f u) (s : State) :
    f (csgenStage c s).state = f s := by
  have enter : f (enterStage .csgen s) = f s := hf s _ _
  rcases csgenStage_cases c s with ⟨_, e⟩ | ⟨_, ⟨_, e⟩ | ⟨_, e⟩⟩ <;> rw [e]
  · exact enter
  · exact enter
  · exact (store _).trans enter

theorem decodeStages_keeps (filtered : ∀ u, f (storeFiltered c u) = f u)
    (found : ∀ u, f (storeSync c .y u) = f u) (bits : ∀ start nb u, f (storeBits c .y start nb u) = f u)
    (frame : ∀ u, f (storeFrame c u) = f u) (s : State) : f (decodeStages c s).state = f s :=
  Run.keeps_andThen (filterStage_keeps hf filtered s) fun s1 =>
  Run.keeps_andThen (syncStage_keeps hf found s1) fun s2 =>
  Run.keeps_andThen (demodStage_keeps hf bits _ _ s2) fun s3 =>
  Run.keeps_andThen (packStage_keeps hf frame s3) fun s4 => checkStage_keeps hf s4

end

/-- The frame of an operation (R55): it keeps whatever its own stages do not store into. Where `f` is made of fields, most of
the hypotheses hold by definition; these are the defaults. -/
theorem exec_keeps {i : Instr} (h : exec i s = .next t)
    (hf : IgnoresControl f := by intro _ _ _; rfl)
    (filtered : i = .bandpass ∨ i = .decode → ∀ u, f (storeFiltered Config.hw u) = f u := by intros; rfl)
    (found : ∀ src, i = .findSync src ∨ i = .decode → ∀ u, f (storeSync Config.hw src u) = f u := by intros; rfl)
    (bits : ∀ src, i = .demod src ∨ i = .decode → ∀ start nb u,
      f (storeBits Config.hw src start nb u) = f u := by intros; rfl)
    (frame : i = .pack ∨ i = .decode → ∀ u, f (storeFrame Config.hw u) = f u := by intros; rfl)
    (checksum : i = .csgen → ∀ u, f (storeChecksum Config.hw u) = f u := by intros; rfl) : f t = f s := by
  have cleared : f (clearValid s) = f s := hf s _ _
  cases i with
  | bandpass => exact (Run.keeps_finish hf h).trans (filterStage_keeps hf (filtered (.inl rfl)) s)
  | findSync src => exact (Run.keeps_finish hf h).trans (syncStage_keeps hf (found src (.inl rfl)) s)
  | demod src => exact (Run.keeps_finish hf h).trans (demodStage_keeps hf (bits src (.inl rfl)) _ _ s)
  | pack => exact (Run.keeps_finish hf h).trans (packStage_keeps hf (frame (.inl rfl)) s)
  | check => exact (Run.keeps_finish hf h).trans ((checkStage_keeps hf _).trans cleared)
  | csgen => exact (Run.keeps_finish hf h).trans (csgenStage_keeps hf (checksum rfl) s)
  | decode =>
    exact (Run.keeps_finish hf h).trans <| (decodeStages_keeps hf (filtered (.inr rfl)) (found .y (.inr rfl))
      (bits .y (.inr rfl)) (frame (.inr rfl)) _).trans cleared

end

/-! ### The groups of fields that R14, R41 and R55 speak of -/

/-- The memories that only the host writes (R41). -/
def inputMemories (s : State) : Memory Sample × Memory Sample × Memory Sample := (s.xmem, s.hmem, s.rmem)

/-- The registers that no operation writes: CMD and the inputs (R14). -/
def inputRegisters (s : State) : Word × CfgReg × Word × Word × Word × Word × Word :=
  (s.cmd, s.cfg, s.xlen, s.rlen, s.chunk, s.start, s.nbits)

/-- The model's own fields (logs 4, 6, 8, 9). -/
def modelFields (s : State) : List HostAccess × Option HostValue × Nat × Nat :=
  (s.pending, s.lastRead, s.epoch, s.draws)

/-- What the filter stage stores (R69). -/
def filterOutputs (s : State) : Memory Sample × Word := (s.ymem, s.ylen)

/-- What the demodulation stage stores (R79). -/
def demodOutputs (s : State) : Memory Bool × Word := (s.bmem, s.bitcnt)

/-- What the pack stage stores (R85). -/
def packOutputs (s : State) : Memory Byte × Word := (s.fmem, s.flen)

theorem exec_inputMemories {i : Instr} (h : exec i s = .next t) : inputMemories t = inputMemories s := exec_keeps h

theorem exec_inputRegisters {i : Instr} (h : exec i s = .next t) : inputRegisters t = inputRegisters s := exec_keeps h

theorem exec_modelFields {i : Instr} (h : exec i s = .next t) : modelFields t = modelFields s := exec_keeps h

theorem exec_filterOutputs {i : Instr} (h : exec i s = .next t) (hi : ¬(i = .bandpass ∨ i = .decode)) :
    filterOutputs t = filterOutputs s :=
  exec_keeps h (filtered := fun runs => absurd runs hi)

theorem exec_sync {i : Instr} (h : exec i s = .next t) (hi : ∀ src, ¬(i = .findSync src ∨ i = .decode)) :
    t.sync = s.sync :=
  exec_keeps h (f := State.sync) (found := fun src runs => absurd runs (hi src))

theorem exec_demodOutputs {i : Instr} (h : exec i s = .next t) (hi : ∀ src, ¬(i = .demod src ∨ i = .decode)) :
    demodOutputs t = demodOutputs s :=
  exec_keeps h (bits := fun src runs => absurd runs (hi src))

theorem exec_packOutputs {i : Instr} (h : exec i s = .next t) (hi : ¬(i = .pack ∨ i = .decode)) :
    packOutputs t = packOutputs s :=
  exec_keeps h (frame := fun runs => absurd runs hi)

theorem exec_csum {i : Instr} (h : exec i s = .next t) (hi : i ≠ .csgen) : t.csum = s.csum :=
  exec_keeps h (f := State.csum) (checksum := fun runs => absurd runs hi)

/-! ### Host writes to memories -/

theorem hostAccess_writeSample_idle (idle : Idle s) (m : SampleSpace) (i : Nat) (v : Sample) :
    hostAccess c (.writeSample m i v) s = writeSample c m i v s := by
  simp [hostAccess, idle]

theorem hostAccess_writeBit_idle (idle : Idle s) (i : Nat) (v : Bool) :
    hostAccess c (.writeBit i v) s = writeBit c i v s := by
  simp [hostAccess, idle]

theorem hostAccess_writeByte_idle (idle : Idle s) (i : Nat) (v : Byte) :
    hostAccess c (.writeByte i v) s = writeByte c i v s := by
  simp [hostAccess, idle]

theorem writeSample_frame (m : SampleSpace) (i : Nat) (v : Sample) (s : State) :
    writeSample c m i v s =
      { s with
        xmem := (writeSample c m i v s).xmem
        hmem := (writeSample c m i v s).hmem
        rmem := (writeSample c m i v s).rmem } := by
  unfold writeSample
  split
  · cases m <;> rfl
  · rfl

theorem writeBit_frame (i : Nat) (v : Bool) (s : State) :
    writeBit c i v s = { s with bmem := (writeBit c i v s).bmem } := by
  unfold writeBit
  split <;> rfl

theorem writeByte_frame (i : Nat) (v : Byte) (s : State) :
    writeByte c i v s = { s with fmem := (writeByte c i v s).fmem } := by
  unfold writeByte
  split <;> rfl

/-- `Memory.lookup_store` for a memory whose unwritten elements have a value too (R40, R44). -/
theorem Memory.getD_lookup_store {α : Type} (m : Memory α) (i : Nat) (v : α) (j : Nat) (unwritten : α) :
    (Memory.lookup (Memory.store m i v) j).getD unwritten =
      if j = i then v else (Memory.lookup m j).getD unwritten := by
  rw [Memory.lookup_store]
  split <;> rfl

/-- A sample memory takes the writes within its capacity that name it; YMEM takes none (R43, R49). -/
theorem sampleMemory_writeSample (m : SampleSpace) (i : Nat) (v : Sample) (s : State) (m' : SampleSpace) :
    sampleMemory (writeSample c m i v s) m' =
      if m ≠ .ymem ∧ i < c.capacity m ∧ m' = m then Memory.store (sampleMemory s m') i v else sampleMemory s m' := by
  unfold writeSample
  split
  next hi =>
    cases m with
    | ymem => simp
    | xmem | hmem | rmem => cases m' <;> simp [hi, sampleMemory]
  next hi => simp [hi]

theorem readSample_writeSample (m : SampleSpace) (i : Nat) (v : Sample) (s : State) (m' : SampleSpace) (j : Nat) :
    readSample c (writeSample c m i v s) m' j =
      if m ≠ .ymem ∧ i < c.capacity m ∧ m' = m ∧ j = i then v else readSample c s m' j := by
  have epoch : (writeSample c m i v s).epoch = s.epoch := by rw [writeSample_frame]
  rw [readSample, epoch, sampleMemory_writeSample]
  by_cases taken : m ≠ .ymem ∧ i < c.capacity m ∧ m' = m
  · rw [if_pos taken, Memory.getD_lookup_store]
    simp only [taken, true_and, ne_eq, not_false_eq_true, readSample]
  · rw [if_neg taken, if_neg fun ⟨my, hi, hm, _⟩ => taken ⟨my, hi, hm⟩, readSample]

theorem readBit_writeBit (i : Nat) (v : Bool) (s : State) (j : Nat) :
    readBit c (writeBit c i v s) j = if i < c.bMax ∧ j = i then v else readBit c s j := by
  unfold writeBit
  split
  next hi => simp only [readBit, Memory.getD_lookup_store, hi, true_and]
  next hi => simp only [hi, false_and, if_false]

theorem readByte_writeByte (i : Nat) (v : Byte) (s : State) (j : Nat) :
    readByte c (writeByte c i v s) j = if i < c.fMax ∧ j = i then v else readByte c s j := by
  unfold writeByte
  split
  next hi => simp only [readByte, Memory.getD_lookup_store, hi, true_and]
  next hi => simp only [hi, false_and, if_false]

/-! ### A busy block -/

/-- A busy block takes no write, to whatever space (R53). -/
theorem hostAccess_of_busy (busy : s.status.busy = true) {a : HostAccess} (not_read : ∀ sp i, a ≠ .read sp i)
    (not_reset : a ≠ .reset) : hostAccess c a s = s := by
  cases a with
  | read sp i => exact absurd rfl (not_read sp i)
  | reset => exact absurd rfl not_reset
  | writeReg n v => exact if_pos busy
  | writeSample m i v => exact if_pos busy
  | writeBit i v => exact if_pos busy
  | writeByte i v => exact if_pos busy

/-- A CMD write too is ignored by a busy block (R53, R60). -/
theorem writeCommand_of_busy (busy : s.status.busy = true) (w : Word) : writeCommand w s = .next s := by
  simp [writeCommand, accepts, busy]

theorem perform_of_busy (busy : s.status.busy = true) {a : HostAccess} (not_read : ∀ sp i, a ≠ .read sp i)
    (not_reset : a ≠ .reset) : perform a s = .next s := by
  unfold perform
  split
  · exact writeCommand_of_busy busy _
  · rw [hostAccess_of_busy busy not_read not_reset]

theorem getLsbD_busyStatus (free : Word) :
    (busyStatus free).getLsbD 0 = true ∧ (busyStatus free).getLsbD 1 = false := by
  rw [busyStatus, BitVec.getLsbD_append, BitVec.getLsbD_append]
  exact ⟨rfl, rfl⟩

/-- STATUS is register 1; of a busy block's answer BUSY and DONE are known (R53). -/
theorem hostRead_status_of_busy (busy : s.status.busy = true) :
    (hostRead c .reg 1 s).lastRead = some (.word (busyStatus (c.freeWord s.draws))) := by
  simp [hostRead, busy, answerBusy]

end

/-! ### The statements -/

/-- Settles O34, group of fields by group of fields, each kept where no stage of the operation stores into it. -/
theorem operationsWriteOnlyTheirOutputs : Obligations.OperationsWriteOnlyTheirOutputs := by
  intro i s t h
  refine ⟨?_, ?_, fun hb hd => ?_, fun hf hd => exec_sync h fun src => not_or.2 ⟨hf src, hd⟩, fun hm hd => ?_,
    fun hp hd => ?_, exec_csum h⟩
  · have memories := exec_inputMemories h
    have registers := exec_inputRegisters h
    simp only [inputMemories, inputRegisters, Prod.mk.injEq] at memories registers
    obtain ⟨xmem, hmem, rmem⟩ := memories
    obtain ⟨cmd, cfg, xlen, rlen, chunk, start, nbits⟩ := registers
    exact ⟨xmem, hmem, rmem, cfg, xlen, rlen, chunk, start, nbits, cmd⟩
  · simpa only [modelFields, Prod.mk.injEq] using exec_modelFields h
  · exact Prod.mk.inj (exec_filterOutputs h (not_or.2 ⟨hb, hd⟩))
  · exact Prod.mk.inj (exec_demodOutputs h fun src => not_or.2 ⟨hm src, hd⟩)
  · exact Prod.mk.inj (exec_packOutputs h (not_or.2 ⟨hp, hd⟩))

/-- Settles O37, memory by memory: the frame of the write, and what is read after it. -/
theorem hostWriteReplacesOneElement : Obligations.HostWriteReplacesOneElement := by
  intro s rest idle
  have idle' : Idle { s with pending := rest } := idle
  refine ⟨fun m i v hp => ⟨_, step_hostAccess hp nofun, ?_⟩, fun i v hp => ⟨_, step_hostAccess hp nofun, ?_⟩,
    fun i v hp => ⟨_, step_hostAccess hp nofun, ?_⟩⟩
  · rw [hostAccess_writeSample_idle idle']
    exact ⟨writeSample_frame m i v _, readSample_writeSample m i v _⟩
  · rw [hostAccess_writeBit_idle idle']
    exact ⟨writeBit_frame i v _, readBit_writeBit i v _⟩
  · rw [hostAccess_writeByte_idle idle']
    exact ⟨writeByte_frame i v _, readByte_writeByte i v _⟩

/-- Settles O40: a read leaves its answer only, and every other access but reset is a write, which is ignored. -/
theorem busyBlockIgnoresWrites : Obligations.BusyBlockIgnoresWrites := by
  intro s a rest hp busy not_reset
  have busy' : { s with pending := rest }.status.busy = true := busy
  by_cases read : ∃ sp i, a = .read sp i
  · obtain ⟨sp, i, rfl⟩ := read
    refine ⟨_, step_hostAccess hp nofun, fun not_read => absurd rfl (not_read sp i),
      fun _ _ _ => hostRead_frame sp i _, ?_⟩
    rintro ⟨⟩
    exact ⟨_, hostRead_status_of_busy busy', getLsbD_busyStatus _⟩
  · have not_read (sp : Space) (i : Nat) : a ≠ .read sp i := fun e => read ⟨sp, i, e⟩
    have ignored : step s = .next { s with pending := rest } := by
      simp only [step, stepHost, hp]
      exact perform_of_busy busy' not_read not_reset
    exact ⟨_, ignored, fun _ => rfl, fun sp i e => absurd e (not_read sp i), fun e => absurd e (not_read .reg 1)⟩

end Sys2Proof.Machine

/-! ## Decoding and encoding, and what a CMD write does

The decoder inverted: a command word is its three fields (R56), the fields of a word that decodes are those of the
operation it decodes to, so `decode w = .ok i` says no more and no less than `encode i = w`. The statements about words
are read off from that. Then the three things a CMD write can do (R59, R60), one equation each. -/

namespace Sys2Proof.Machine

section

variable {w : Word} {i : Instr} {f : CmdFields} {s t : State}

/-! ### A command word is its fields -/

/-- The word that holds the fields as R56 lays them out. -/
def fieldsWord (f : CmdFields) : Word := f.reserved ++ BitVec.ofBool f.src ++ f.op

theorem fieldsWord_ofWord (w : Word) : fieldsWord (CmdFields.ofWord w) = w := by
  have src_bit : BitVec.ofBool (w.getLsbD 4) = w.extractLsb' 4 1 := by
    apply BitVec.eq_of_getLsbD_eq
    intro k hk
    obtain rfl : k = 0 := by omega
    simp
  calc fieldsWord (CmdFields.ofWord w)
      = w.extractLsb' 5 27 ++ w.extractLsb' 4 1 ++ w.extractLsb' 0 4 := by rw [← src_bit]; rfl
    _ = w.extractLsb' 4 28 ++ w.extractLsb' 0 4 := by
      rw [BitVec.extractLsb'_append_extractLsb'_eq_extractLsb' (start₁ := 4) (len₁ := 1) rfl]
    _ = w.extractLsb' 0 32 := by
      rw [BitVec.extractLsb'_append_extractLsb'_eq_extractLsb' (start₁ := 0) (len₁ := 4) rfl]
    _ = w := BitVec.extractLsb'_eq_self

/-- The fields an operation is encoded with (R56, R57). -/
def fieldsOf (i : Instr) : CmdFields := { op := i.opcode, src := i.srcBit, reserved := 0 }

theorem fieldsWord_fieldsOf (i : Instr) : fieldsWord (fieldsOf i) = encode i := rfl

/-! ### The decoder inverted -/

theorem bit_ofBit (b : Bool) : (Src.ofBit b).bit = b := by cases b <;> rfl

/-- The operation has the code OP (R57), and the waveform SRC where it takes one; where it takes none, SRC = 1 is not
allowed (R59). -/
theorem fields_of_operationOf (h : operationOf f = .ok i) :
    f.op = i.opcode ∧ (f.srcAllowed = true → f.src = i.srcBit) := by
  unfold operationOf at h
  split at h <;> cases h
  case h_3.refl hop | h_4.refl hop => exact ⟨BitVec.eq_of_toNat_eq hop, fun _ => (bit_ofBit _).symm⟩
  all_goals next hop =>
    refine ⟨BitVec.eq_of_toNat_eq hop, fun allowed => ?_⟩
    simpa [CmdFields.srcAllowed, ← BitVec.toNat_inj, hop, Instr.srcBit] using allowed

theorem opAssigned_of_opcode (h : f.op = i.opcode) : f.opAssigned = true := by
  rw [CmdFields.opAssigned, h]
  cases i <;> rfl

/-- A word that decodes has passed the checks of R59, so nothing but SRC and OP is left of it. -/
theorem ofWord_of_decode (h : decode w = .ok i) : CmdFields.ofWord w = fieldsOf i := by
  simp only [decode] at h
  split_ifs at h with assigned reserved allowed
  · obtain ⟨op, _⟩ := fields_of_operationOf h
    simp [opAssigned_of_opcode op] at assigned
  · obtain ⟨op, src⟩ := fields_of_operationOf h
    have reserved_zero : (CmdFields.ofWord w).reserved = 0 := by simpa [CmdFields.reservedZero] using reserved
    have src_eq : (CmdFields.ofWord w).src = i.srcBit := src (by simpa using allowed)
    rw [fieldsOf, ← op, ← src_eq, ← reserved_zero]

theorem decode_encode (i : Instr) : decode (encode i) = .ok i := by
  cases i with
  | findSync src | demod src => cases src <;> decide
  | bandpass | pack | check | csgen | decode => decide

theorem decode_eq_ok_iff : decode w = .ok i ↔ encode i = w := by
  constructor
  · intro h
    rw [← fieldsWord_fieldsOf, ← ofWord_of_decode h, fieldsWord_ofWord]
  · rintro rfl
    exact decode_encode i

/-- The nine legal command words (R57). -/
theorem exists_decode_iff :
    (∃ i, decode w = .ok i) ↔ w ∈ [0x01#32, 0x02, 0x12, 0x03, 0x13, 0x04, 0x05, 0x06, 0x07] := by
  simp only [decode_eq_ok_iff]
  constructor
  · rintro ⟨i, rfl⟩
    cases i with
    | findSync src | demod src => cases src <;> decide
    | bandpass | pack | check | csgen | decode => decide
  · have encoded (j : Instr) : ∃ i, encode i = encode j := ⟨j, rfl⟩
    simp only [List.mem_cons, List.not_mem_nil, or_false]
    rintro (rfl | rfl | rfl | rfl | rfl | rfl | rfl | rfl | rfl)
    · exact encoded .bandpass
    · exact encoded (.findSync .x)
    · exact encoded (.findSync .y)
    · exact encoded (.demod .x)
    · exact encoded (.demod .y)
    · exact encoded .pack
    · exact encoded .check
    · exact encoded .csgen
    · exact encoded .decode

/-! ### Rows of the opcode table -/

/-- A row whose mask looks at every bit selects the one word of its operation (R57). -/
theorem full_row_iff {m : Word} (hi : encode i = m) : w &&& 0xFFFFFFFF = m ↔ decode w = .ok i := by
  have all_bits : w &&& 0xFFFFFFFF = w := BitVec.and_allOnes
  rw [decode_eq_ok_iff, all_bits, hi, eq_comm]

/-- A mask that leaves out bit 4, SRC, lets a word through with it and without it (R56). -/
theorem and_srcMask_eq_iff {m : Word} (hm : m &&& 0xFFFFFFEF = m) :
    w &&& 0xFFFFFFEF = m ↔ m = w ∨ m ||| 0x10 = w := by
  have split_src : w = w &&& 0xFFFFFFEF ||| w &&& 0x10 := by
    rw [← BitVec.and_or_distrib_left]
    exact BitVec.and_allOnes.symm
  have src_bit : w &&& 0x10 = if w.getLsbD 4 then 0x10#32 else 0 := BitVec.and_twoPow w 4
  constructor
  · intro h
    rw [h, src_bit] at split_src
    split at split_src
    · exact .inr split_src.symm
    · exact .inl (by simpa using split_src.symm)
  · rintro (rfl | rfl)
    · exact hm
    · rw [BitVec.and_or_distrib_right, hm]
      simp

/-- A row whose mask leaves out SRC selects the operation with either waveform (R57, R58). -/
theorem source_row_iff {op : Src → Instr} {m : Word} (hx : encode (op .x) = m) (hy : encode (op .y) = m ||| 0x10)
    (hm : m &&& 0xFFFFFFEF = m) :
    w &&& 0xFFFFFFEF = m ↔ decode w = .ok (op .x) ∨ decode w = .ok (op .y) := by
  rw [decode_eq_ok_iff, decode_eq_ok_iff, hx, hy, and_srcMask_eq_iff hm]

/-! ### What a CMD write does -/

theorem step_writeCommand {rest : List HostAccess} (h : s.pending = .writeReg 0 w :: rest) :
    step s = writeCommand w { s with pending := rest } := by
  simp only [step, stepHost, h, perform]

/-- A halted or busy block ignores it (R60). -/
theorem writeCommand_of_not_accepted (h : ¬(s.status.busy = false ∧ s.status.err = none)) :
    writeCommand w s = .next s := by
  rcases writeCommand_cases w s with ⟨_, e⟩ | ⟨accepted, _⟩
  · exact e
  · exact absurd accepted h

theorem writeCommand_of_decode_ok (idle : Idle s) (noFault : s.status.err = none) (hd : decode w = .ok i) :
    writeCommand w s = exec i (acceptCommand w s) := by
  simp [writeCommand, accepts, idle, noFault, hd]

/-- An illegal word raises ILLEGAL_CMD (R59). -/
theorem writeCommand_of_illegal (idle : Idle s) (noFault : s.status.err = none) (illegal : ∀ i, decode w ≠ .ok i) :
    writeCommand w s = .next (raiseFault .illegalCmd (acceptCommand w s)) := by
  rcases writeCommand_cases w s with ⟨ignored, _⟩ | ⟨_, ⟨i, hi, _⟩ | ⟨_, _, e⟩⟩
  · exact absurd ⟨idle, noFault⟩ ignored
  · exact absurd hi (illegal i)
  · exact e

/-! ### How an operation ends -/

/-- BUSY is 0 and DONE is 1 again, and STAGE is 0 unless it names the stage of a fault (R60, R98). -/
theorem Run.finish_control {r : Run} (h : r.finish = .next t) :
    t.status.busy = false ∧ t.status.done = true ∧ (t.status.err = none → t.stage = .idle) := by
  cases r with
  | done u =>
    cases h
    exact ⟨rfl, rfl, fun _ => rfl⟩
  | faulted code u =>
    cases h
    exact ⟨rfl, rfl, nofun⟩

theorem exec_control (h : exec i s = .next t) :
    t.status.busy = false ∧ t.status.done = true ∧ (t.status.err = none → t.stage = .idle) := by
  cases i <;> exact Run.finish_control h

theorem exec_cmd (h : exec i s = .next t) : t.cmd = s.cmd := exec_keeps h (f := State.cmd)

/-- CHECK and DECODE may as well find VALID cleared: they clear it themselves (R29, R60). -/
theorem exec_clear_valid_first (i : Instr) (s : State) :
    exec i s = exec i (if i = .check ∨ i = .decode then withValid false s else s) := by
  split
  next clears => exact (exec_withValid_of_clears clears false).symm
  next => rfl

end

/-! ### The statements -/

/-- Settles O1: each operation is decoded from its word, and a word that decodes has the fields of its operation. -/
theorem encodeAndDecodeAgree : Obligations.EncodeAndDecodeAgree :=
  ⟨fun i _ => decode_encode i, fun _ _ => decode_eq_ok_iff.1⟩

/-- Settles O2, row by row. -/
theorem matchAndMaskSelectTheOperation : Obligations.MatchAndMaskSelectTheOperation := by
  intro w
  exact ⟨full_row_iff (i := .bandpass) rfl, source_row_iff (op := .findSync) rfl rfl rfl,
    source_row_iff (op := .demod) rfl rfl rfl, full_row_iff (i := .pack) rfl, full_row_iff (i := .check) rfl,
    full_row_iff (i := .csgen) rfl, full_row_iff (i := .decode) rfl, exists_decode_iff⟩

/-- Settles O5: what the write is ignored for, and the two ways on from acceptance. -/
theorem commandWriteSequence : Obligations.CommandWriteSequence := by
  intro s w rest hp
  rw [step_writeCommand hp]
  refine ⟨fun refused => writeCommand_of_not_accepted refused,
    fun idle noFault => ⟨fun illegal => writeCommand_of_illegal idle noFault illegal, fun i hi => ?_⟩⟩
  have runs := writeCommand_of_decode_ok (s := { s with pending := rest }) idle noFault hi
  obtain ⟨t, ht⟩ := exec_next (acceptCommand w { s with pending := rest }) i
  exact ⟨runs.trans (exec_clear_valid_first i _), t, runs.trans ht, exec_cmd ht, exec_control ht⟩

/-- Settles O6: a word that does not decode is refused for some reason, and the write of it raises the fault. -/
theorem illegalWordsFault : Obligations.IllegalWordsFault := by
  intro w hw
  have illegal (i : Instr) : decode w ≠ .ok i := fun hi => hw (exists_decode_iff.1 ⟨i, hi⟩)
  refine ⟨?_, fun s rest hp idle noFault => ?_⟩
  · cases hd : decode w with
    | ok i => exact absurd hd (illegal i)
    | error r => exact ⟨r, rfl⟩
  · rw [step_writeCommand hp]
    exact writeCommand_of_illegal idle noFault illegal

/-- Settles O3: five words are those of their operations, and two break one rule of R59 each. -/
theorem specWordsDecode : Obligations.SpecWordsDecode :=
  ⟨decode_encode .bandpass, decode_encode (.findSync .y), decode_encode (.demod .x), decode_encode .check,
    decode_encode .decode, by decide, by decide⟩

/-- Settles O4: the step takes the access, and the write is accepted. -/
theorem stepRunsTheDecodedCommand : Obligations.StepRunsTheDecodedCommand := by
  intro s w i rest hp idle noFault hi
  rw [step_writeCommand hp]
  exact writeCommand_of_decode_ok idle noFault hi

end Sys2Proof.Machine

/-! ## The band-pass filter

What BANDPASS does as one equation per answer, and what YMEM reads as after the filter stage (R69, R70). For one sample the
sum of R70 has a single term, so first what a sum of R9 comes to when its condition skips every term but one (R71). -/

namespace Sys2Proof.Machine

section

variable {c : Config} {s : State}

/-! ### Sums with at most one term -/

section

variable (num : Numerics) {n : Nat} {cond : Nat → Bool} (term : Nat → Sample)

theorem loopSum_succ (n : Nat) (cond : Nat → Bool) :
    loopSum num (n + 1) cond term =
      if cond n then num.add (loopSum num n cond term) (term n) else loopSum num n cond term := by
  simp [loopSum, List.range_succ]

theorem loopSum_of_all_skipped (skipped : ∀ k, k < n → cond k = false) : loopSum num n cond term = num.zero := by
  induction n with
  | zero => rfl
  | succ n ih => simp [loopSum_succ, skipped n (by omega), ih fun k hk => skipped k (by omega)]

theorem loopSum_of_single {k : Nat} (hk : k < n) (single : ∀ j, j < n → (cond j = true ↔ j = k)) :
    loopSum num n cond term = num.add num.zero (term k) := by
  induction n with
  | zero => omega
  | succ n ih =>
    rw [loopSum_succ]
    by_cases last : k = n
    · subst last
      have before : loopSum num k cond term = num.zero :=
        loopSum_of_all_skipped num term fun j hj => by
          rw [Bool.eq_false_iff, ne_eq, single j (by omega)]
          omega
      rw [if_pos ((single k hk).2 rfl), before]
    · have skipped : ¬cond n = true := fun taken => last ((single n (by omega)).1 taken).symm
      rw [if_neg skipped, ih (by omega) fun j hj => single j (by omega)]

end

/-- For one sample, element 63 of the full convolution has the term of tap 63 only: no other tap meets sample 0 (R71). -/
theorem fullConvolution_of_one_sample (hx : s.xlen.toNat = 1) :
    fullConvolution c s 63 =
      c.num.add c.num.zero (c.num.mul (readSample c s .hmem 63) (readSample c s .xmem 0)) := by
  unfold fullConvolution
  rw [loopSum_of_single c.num _ (k := 63) (by omega)]
  intro k _
  simp only [hx, Bool.and_eq_true, decide_eq_true_eq]
  omega

/-! ### What BANDPASS answers, and YMEM after it -/

theorem exec_bandpass_of_badLength (bad : s.xlen.toNat = 0 ∨ Config.hw.nMax < s.xlen.toNat) :
    exec .bandpass s = .next (raiseFault .badLen (enterStage .filter s)) := by
  rcases filterStage_cases Config.hw s with ⟨_, e⟩ | ⟨good, _⟩
  · rw [exec_bandpass, e, Run.finish_faulted]
  · omega

theorem exec_bandpass_of_length (good : 1 ≤ s.xlen.toNat ∧ s.xlen.toNat ≤ Config.hw.nMax) :
    exec .bandpass s = .next (complete (afterFilter Config.hw s)) := by
  rw [exec_bandpass, filterStage_done_iff.2 ⟨good, rfl⟩, Run.finish_done, afterFilter]

/-- YMEM after the filter stage: the outputs of R70 below XLEN, the old elements from there on. -/
theorem readSample_ymem_afterFilter (i : Nat) :
    readSample c (afterFilter c s) .ymem i =
      if i < s.xlen.toNat then fullConvolution c s (i + 63) else readSample c s .ymem i := by
  rw [afterFilter, readSample_storeFiltered, filterSample_eq, fullConvolution_enterStage, readSample_enterStage]
  simp

end

/-! ### The statements -/

/-- Settles O14: the two answers of BANDPASS, and YMEM below and from XLEN on. -/
theorem bandpassFiltersTheInput : Obligations.BandpassFiltersTheInput := by
  intro s
  refine ⟨fun bad => exec_bandpass_of_badLength bad,
    fun low high => ⟨_, exec_bandpass_of_length ⟨low, high⟩, rfl, fun i below => ?_, fun i above => ?_⟩⟩
  · rw [readSample_complete, readSample_ymem_afterFilter, if_pos below]
  · rw [readSample_complete, readSample_ymem_afterFilter, if_neg (by omega)]

/-- Settles O15, from O14's result: one sample fits any capacity, and YMEM[0] is element 63 of the full convolution. -/
theorem oneSampleInputUsesTap63 : Obligations.OneSampleInputUsesTap63 := by
  intro s hx
  have length : s.xlen.toNat = 1 := by rw [hx]; rfl
  obtain ⟨t, ht, frame, results, _⟩ :=
    (bandpassFiltersTheInput s).2 length.ge (length.le.trans Config.hw.one_le_nMax)
  have ylen : t.ylen = s.xlen := by rw [frame]
  exact ⟨t, ht, ylen.trans hx, (results 0 (by omega)).trans (fullConvolution_of_one_sample length)⟩

end Sys2Proof.Machine

/-! ## The chirp correlator

The peak search by itself (R75): its result has the greatest magnitude and is the first lag that has it (R76), and a lag that
stands out is its result (R77). Then what FIND_SYNC does as one equation per answer, and SYNC as a number after it. -/

namespace Sys2Proof.Machine

section

variable {num : Numerics} {corr : Nat → Sample}

/-! ### The peak search -/

theorem peakLag_succ_of_greater {n : Nat} (greater : num.magGt (corr (n + 1)) (corr (peakLag num corr n)) = true) :
    peakLag num corr (n + 1) = n + 1 := if_pos greater

theorem peakLag_succ_of_not_greater {n : Nat} (not_greater : ¬num.magGt (corr (n + 1)) (corr (peakLag num corr n)) = true) :
    peakLag num corr (n + 1) = peakLag num corr n := if_neg not_greater

section

variable {β : Type} [LinearOrder β] {mag : Sample → β} (ordered : ∀ a b, num.magGt a b = true ↔ mag b < mag a)
include ordered

theorem mag_le_mag_peakLag {n j : Nat} (hj : j ≤ n) : mag (corr j) ≤ mag (corr (peakLag num corr n)) := by
  induction n with
  | zero => rw [Nat.le_zero.1 hj, peakLag]
  | succ n ih =>
    by_cases greater : num.magGt (corr (n + 1)) (corr (peakLag num corr n)) = true
    · rw [peakLag_succ_of_greater greater]
      obtain rfl | earlier := Nat.le_succ_iff_eq_or_le.1 hj
      · exact le_rfl
      · exact (ih earlier).trans ((ordered _ _).1 greater).le
    · rw [peakLag_succ_of_not_greater greater]
      obtain rfl | earlier := Nat.le_succ_iff_eq_or_le.1 hj
      · rwa [ordered, not_lt] at greater
      · exact ih earlier

theorem mag_lt_mag_peakLag {n j : Nat} (hj : j < peakLag num corr n) : mag (corr j) < mag (corr (peakLag num corr n)) := by
  induction n with
  | zero => exact absurd hj (Nat.not_lt_zero j)
  | succ n ih =>
    by_cases greater : num.magGt (corr (n + 1)) (corr (peakLag num corr n)) = true
    · rw [peakLag_succ_of_greater greater] at hj ⊢
      exact (mag_le_mag_peakLag ordered (Nat.lt_succ_iff.1 hj)).trans_lt ((ordered _ _).1 greater)
    · rw [peakLag_succ_of_not_greater greater] at hj ⊢
      exact ih hj

end

/-- Whatever the search held before lag `k`, it takes `k` there and never leaves it: no order is needed (R77). -/
theorem peakLag_eq_of_stands_out {k n : Nat} (hk : k ≤ n) (before : ∀ j, j < k → num.magGt (corr k) (corr j) = true)
    (after : ∀ j, k < j → j ≤ n → num.magGt (corr j) (corr k) = false) : peakLag num corr n = k := by
  induction n with
  | zero => rw [Nat.le_zero.1 hk, peakLag]
  | succ n ih =>
    obtain rfl | earlier := Nat.le_succ_iff_eq_or_le.1 hk
    · exact peakLag_succ_of_greater (before _ (Nat.lt_succ_of_le (peakLag_le num corr n)))
    · have held : peakLag num corr n = k := ih earlier fun j hj hn => after j hj (by omega)
      rw [peakLag_succ_of_not_greater, held]
      rw [held, after (n + 1) (by omega) le_rfl]
      exact Bool.false_ne_true

end

section

variable {c : Config} {s t : State} {src : Src}

/-! ### What FIND_SYNC answers, and SYNC after it -/

theorem exec_findSync_of_badLength (bad : srcLength src s = 0 ∨ Config.hw.nMax < srcLength src s) :
    exec (.findSync src) s = .next (raiseFault .badLen (enterStage .sync s)) := by
  rcases syncStage_cases Config.hw s src with ⟨_, e⟩ | ⟨good, _⟩
  · rw [exec_findSync, e, Run.finish_faulted]
  · omega

theorem exec_findSync_of_badReference (length : 1 ≤ srcLength src s ∧ srcLength src s ≤ Config.hw.nMax)
    (bad : s.rlen.toNat = 0 ∨ Config.hw.rMax < s.rlen.toNat ∨ srcLength src s < s.rlen.toNat) :
    exec (.findSync src) s = .next (raiseFault .badRef (enterStage .sync s)) := by
  rcases syncStage_cases Config.hw s src with ⟨badLength, _⟩ | ⟨_, ⟨_, e⟩ | ⟨good, _⟩⟩
  · omega
  · rw [exec_findSync, e, Run.finish_faulted]
  · omega

theorem exec_findSync_of_fits (length : 1 ≤ srcLength src s ∧ srcLength src s ≤ Config.hw.nMax)
    (fits : 1 ≤ s.rlen.toNat ∧ s.rlen.toNat ≤ Config.hw.rMax ∧ s.rlen.toNat ≤ srcLength src s) :
    exec (.findSync src) s = .next (complete (storeSync Config.hw src (enterStage .sync s))) := by
  rw [exec_findSync, syncStage_done_iff.2 ⟨⟨length, fits⟩, rfl⟩, Run.finish_done]

theorem syncOffset_eq (c : Config) (s : State) (src : Src) :
    syncOffset c src s =
      peakLag c.num (lagSum c s (srcSpace src)) (srcLength src s - s.rlen.toNat) + s.rlen.toNat := by
  rw [syncOffset, funext (correlation_eq c s src)]

/-- SYNC after the sync stage, as a number and in terms of the state before it (R75). -/
theorem toNat_sync_storeSync_enterStage (fits : s.rlen.toNat ≤ srcLength src s) :
    (storeSync c src (enterStage .sync s)).sync.toNat =
      peakLag c.num (lagSum c s (srcSpace src)) (srcLength src s - s.rlen.toNat) + s.rlen.toNat := by
  have sums : lagSum c (enterStage .sync s) (srcSpace src) = lagSum c s (srcSpace src) :=
    funext (lagSum_enterStage c s .sync _)
  rw [storeSync_sync, storeSync_toNat c _ src (by simpa using fits), syncOffset_eq, sums, srcLength_enterStage,
    enterStage_rlen]

/-- What a FIND_SYNC that left no fault has found. -/
theorem findSyncOp_completed (h : findSyncOp c src s = .next t) (noFault : t.status.err = none) :
    s.rlen.toNat ≤ srcLength src s ∧ t.sync.toNat =
      peakLag c.num (lagSum c s (srcSpace src)) (srcLength src s - s.rlen.toNat) + s.rlen.toNat := by
  obtain ⟨u, hu, rfl⟩ := Run.done_of_finish h noFault
  obtain ⟨⟨_, _, _, fits⟩, rfl⟩ := syncStage_done_iff.1 hu
  exact ⟨fits, toNat_sync_storeSync_enterStage fits⟩

end

/-! ### The statements -/

/-- Settles O16: the three answers of FIND_SYNC, and SYNC by the scan of R75. -/
theorem findSyncReturnsThePeakEnd : Obligations.FindSyncReturnsThePeakEnd := by
  intro s src n sp hx hy
  obtain ⟨rfl, rfl⟩ : n = srcLength src s ∧ sp = srcSpace src := by
    cases src with
    | x => exact hx rfl
    | y => exact hy rfl
  refine ⟨fun bad => exec_findSync_of_badLength bad,
    fun low high bad => exec_findSync_of_badReference ⟨low, high⟩ bad,
    fun high nonempty capacity within =>
      ⟨_, exec_findSync_of_fits ⟨nonempty.trans within, high⟩ ⟨nonempty, capacity, within⟩, rfl, ?_⟩⟩
  rw [complete_sync, toNat_sync_storeSync_enterStage within, peakLag_eq_loopPeak]

/-- Settles O17: a completed search found the first lag of greatest magnitude among those up to the last. -/
theorem peakIsTheFirstMaximum : Obligations.PeakIsTheFirstMaximum := by
  intro c β _ mag s t src ordered h _ noFault
  obtain ⟨fits, sync⟩ := findSyncOp_completed h noFault
  have lag := peakLag_le c.num (lagSum c s (srcSpace src)) (srcLength src s - s.rlen.toNat)
  exact ⟨_, sync, by omega, fun j hj => mag_le_mag_peakLag ordered (by omega), fun j => mag_lt_mag_peakLag ordered⟩

/-- Settles O19: the search ends at a lag that stands out. -/
theorem exactCopyIsFound : Obligations.ExactCopyIsFound := by
  intro c s t src k h _ noFault hk before after
  obtain ⟨_, sync⟩ := findSyncOp_completed h noFault
  rw [sync, peakLag_eq_of_stands_out (by omega) before fun j hj last => after j hj (by omega)]

end Sys2Proof.Machine

/-! ## The differential phase demodulator

The number of bits as arithmetic (R80), and a bit of R82 as a recursion: each pair keeps the bit before it or inverts it. From
the recursion follow what INIT_BIT does to every bit (R82) and the round trip (R84). Then what DEMOD answers, and BITCNT and
BMEM after it. -/

namespace Sys2Proof.Machine

/-! ### How many bits (R80) -/

section

variable {n cs start nb : Nat}

theorem bitsProduced_eq_of_all_fit (hcs : 0 < cs) (fits : (nb + 1) * cs + start ≤ n) : bitsProduced n cs start nb = nb := by
  have chunks : nb + 1 ≤ (n - start) / cs := (Nat.le_div_iff_mul_le hcs).2 (by omega)
  simp only [bitsProduced]
  omega

theorem bitsProduced_eq_zero_of_short (hcs : 0 < cs) (short : n < 2 * cs + start) : bitsProduced n cs start nb = 0 := by
  have chunks : (n - start) / cs < 2 := (Nat.div_lt_iff_lt_mul hcs).2 (by omega)
  simp only [bitsProduced]
  omega

theorem last_chunk_fits (hcs : 0 < cs) (some_bit : bitsProduced n cs start nb ≠ 0) :
    (bitsProduced n cs start nb + 1) * cs + start ≤ n := by
  have chunks : bitsProduced n cs start nb + 1 ≤ (n - start) / cs := by
    simp only [bitsProduced] at some_bit ⊢
    omega
  have room := (Nat.le_div_iff_mul_le hcs).1 chunks
  have positive : 0 < (bitsProduced n cs start nb + 1) * cs := Nat.mul_pos (Nat.succ_pos _) hcs
  omega

theorem next_chunk_does_not_fit (hcs : 0 < cs) (stopped : bitsProduced n cs start nb < nb) :
    n < (bitsProduced n cs start nb + 2) * cs + start := by
  have chunks : (n - start) / cs < bitsProduced n cs start nb + 2 := by
    simp only [bitsProduced] at stopped ⊢
    omega
  have room := (Nat.div_lt_iff_lt_mul hcs).1 chunks
  omega

end

section

variable {c : Config} {s t : State} {src : Src}

/-! ### The bits one after the other (R81, R82) -/

@[simp] theorem bitAfter_enterStage (st : Stage) (sp : SampleSpace) (start m : Nat) :
    bitAfter c (enterStage st s) sp start m = bitAfter c s sp start m :=
  bitAfter_congr c rfl rfl (readSample_enterStage c s st) sp start m

theorem bitAfter_zero (sp : SampleSpace) (start : Nat) : bitAfter c s sp start 0 = s.cfg.initBit := by
  simp [bitAfter, reversals]

/-- A bit is the bit before it, inverted when the pair between them is a phase reversal. -/
theorem bitAfter_succ (start m : Nat) :
    bitAfter c s (srcSpace src) start (m + 1) =
      xor (bitAfter c s (srcSpace src) start m) (c.num.isNeg (pairSum c s (srcSpace src) start (m + 1))) := by
  rw [← runningBit_eq c s src start (m + 1) [], demodLoop, runningBit_eq, reversal, chunkProduct_eq]
  cases c.num.isNeg (pairSum c s (srcSpace src) start (m + 1)) <;> simp

/-- If a pair is a reversal exactly where the sequence `B` changes, the bits from `B 0` on are `B`. -/
theorem bitAfter_eq_of_reversals {start n m : Nat} {B : Nat → Bool} (init : s.cfg.initBit = B 0)
    (pairs : ∀ k, k < n → c.num.isNeg (pairSum c s (srcSpace src) start (k + 1)) = (B k != B (k + 1))) (hm : m ≤ n) :
    bitAfter c s (srcSpace src) start m = B m := by
  induction m with
  | zero => rw [bitAfter_zero, init]
  | succ m ih =>
    rw [bitAfter_succ, ih (by omega), pairs m hm]
    simp

/-- The sum of a pair sees no more of the waveform than the two chunks. -/
theorem pairSum_of_chunks {sp : SampleSpace} {start m : Nat} {u v : Nat → Sample}
    (first : ∀ i, i < s.chunk.toNat → readSample c s sp (start + m * s.chunk.toNat + i) = u i)
    (second : ∀ i, i < s.chunk.toNat → readSample c s sp (start + (m + 1) * s.chunk.toNat + i) = v i) :
    pairSum c s sp start (m + 1) = loopSum c.num s.chunk.toNat (fun _ => true) fun i => c.num.mul (u i) (v i) :=
  loopSum_congr c.num _ (fun _ _ => rfl) fun i hi _ => by rw [Nat.add_sub_cancel, first i hi, second i hi]

/-! ### The state with another INIT_BIT (R27) -/

/-- The state with INIT_BIT changed and nothing else. -/
def withInitBit (b : Bool) (s : State) : State := { s with cfg := { s.cfg with initBit := b } }

@[simp] theorem srcLength_withInitBit (src : Src) (b : Bool) : srcLength src (withInitBit b s) = srcLength src s := by
  cases src <;> rfl

theorem reversals_withInitBit (b : Bool) (sp : SampleSpace) (start m : Nat) :
    reversals c (withInitBit b s) sp start m = reversals c s sp start m := by
  have samples : readSample c (withInitBit b s) = readSample c s := readSample_congr_all c rfl rfl rfl rfl rfl
  simp only [reversals, pairSum, samples]
  rfl

theorem bitAfter_withInitBit_not (sp : SampleSpace) (start m : Nat) :
    bitAfter c (withInitBit (!s.cfg.initBit) s) sp start m = !bitAfter c s sp start m := by
  rw [bitAfter, reversals_withInitBit, bitAfter, ← Bool.not_xor]
  rfl

/-! ### What a completed DEMOD leaves -/

/-- The conditions of R79 under which DEMOD completes. -/
def DemodFits (c : Config) (src : Src) (s : State) : Prop :=
  s.cfg.mode = .differential ∧ (1 ≤ srcLength src s ∧ srcLength src s ≤ c.nMax) ∧ 2 ≤ s.chunk.toNat ∧
    s.nbits.toNat ≤ c.bMax

/-- The state in which a DEMOD that completes ends. -/
def demodulated (c : Config) (src : Src) (s : State) : State :=
  complete (storeBits c src s.start.toNat s.nbits.toNat (enterStage .demod s))

theorem demodOp_of_fits (fits : DemodFits c src s) : demodOp c src s = .next (demodulated c src s) := by
  rw [demodOp, demodStage_done_iff.2 ⟨fits, rfl⟩, Run.finish_done, demodulated]

theorem demodOp_completed (h : demodOp c src s = .next t) (noFault : t.status.err = none) :
    DemodFits c src s ∧ t = demodulated c src s := by
  obtain ⟨u, hu, rfl⟩ := Run.done_of_finish h noFault
  obtain ⟨fits, rfl⟩ := demodStage_done_iff.1 hu
  exact ⟨fits, rfl⟩

theorem demodFits_withInitBit (fits : DemodFits c src s) (b : Bool) : DemodFits c src (withInitBit b s) := by
  obtain ⟨mode, length, rest⟩ := fits
  exact ⟨mode, by rwa [srcLength_withInitBit], rest⟩

theorem demodulated_bitcnt :
    (demodulated c src s).bitcnt =
      BitVec.ofNat 32 (bitsProduced (srcLength src s) s.chunk.toNat s.start.toNat s.nbits.toNat) := by
  rw [demodulated, complete_bitcnt, storeBits_bitcnt, srcLength_enterStage, enterStage_chunk]

theorem toNat_bitcnt_demodulated :
    (demodulated c src s).bitcnt.toNat =
      bitsProduced (srcLength src s) s.chunk.toNat s.start.toNat s.nbits.toNat := by
  rw [demodulated_bitcnt, bitsProduced_toNat _ _ _ _ s.nbits.isLt]

/-- BMEM after DEMOD, in terms of the state before it: the bits of R82 below BITCNT, the old bits from there on. -/
theorem readBit_demodulated (j : Nat) :
    readBit c (demodulated c src s) j =
      if j < (demodulated c src s).bitcnt.toNat then bitAfter c s (srcSpace src) s.start.toNat (j + 1)
      else readBit c s j := by
  rw [toNat_bitcnt_demodulated, demodulated, readBit_complete, readBit_storeBits, runningBit_eq,
    bitAfter_enterStage, srcLength_enterStage, enterStage_chunk, readBit_enterStage]

theorem readBit_demodulated_of_lt {j : Nat} (hj : j < (demodulated c src s).bitcnt.toNat) :
    readBit c (demodulated c src s) j = bitAfter c s (srcSpace src) s.start.toNat (j + 1) := by
  rw [readBit_demodulated, if_pos hj]

end

/-! ### The statements -/

/-- Settles O20: the cases of the demodulation stage are the five answers of R79, in the statement's own order. -/
theorem demodProducesTheBits : Obligations.DemodProducesTheBits := by
  intro s src n sp hx hy
  obtain ⟨rfl, rfl⟩ : n = srcLength src s ∧ sp = srcSpace src := by
    cases src with
    | x => exact hx rfl
    | y => exact hy rfl
  rcases demodStage_cases Config.hw s src s.start.toNat s.nbits.toNat with
    ⟨absolute, e⟩ | ⟨differential, rest⟩
  · exact ⟨fun _ => congrArg Run.finish e, fun other => absurd (absolute.symm.trans other) nofun⟩
  · refine ⟨fun other => absurd (differential.symm.trans other) nofun, fun _ => ?_⟩
    rcases rest with ⟨bad, e⟩ | ⟨length, rest⟩
    · exact ⟨fun _ => congrArg Run.finish e, fun _ _ => by omega⟩
    · refine ⟨fun _ => by omega, fun _ _ => ?_⟩
      rcases rest with ⟨bad, e⟩ | ⟨chunk, ⟨bad, e⟩ | ⟨count, _⟩⟩
      · exact ⟨fun _ => congrArg Run.finish e, fun _ => by omega, fun _ => by omega⟩
      · exact ⟨fun _ => by omega, fun _ _ => congrArg Run.finish e, fun _ _ => by omega⟩
      · refine ⟨fun _ => by omega, fun _ _ => by omega, fun _ _ =>
          ⟨_, demodOp_of_fits ⟨differential, length, chunk, count⟩, rfl, toNat_bitcnt_demodulated,
            fun j below => readBit_demodulated_of_lt below, fun j above => ?_⟩⟩
        rw [readBit_demodulated, if_neg (by omega)]

/-- Settles O21: BITCNT is the number of R80, and CHUNK was at least 2. -/
theorem demodStopsEarly : Obligations.DemodStopsEarly := by
  intro c s t src h _ noFault
  obtain ⟨⟨_, _, chunk, _⟩, rfl⟩ := demodOp_completed h noFault
  have hcs : 0 < s.chunk.toNat := by omega
  refine ⟨fun all_fit => ?_, fun short => ?_, ?_⟩
  · rw [demodulated_bitcnt, bitsProduced_eq_of_all_fit hcs all_fit, BitVec.ofNat_toNat, BitVec.setWidth_eq]
  · rw [demodulated_bitcnt, bitsProduced_eq_zero_of_short hcs short]
    rfl
  · rw [toNat_bitcnt_demodulated]
    exact ⟨bitsProduced_le .., last_chunk_fits hcs, next_chunk_does_not_fit hcs⟩

/-- Settles O22: DEMOD completes with either INIT_BIT, counts the same chunks, and every bit has INIT_BIT in it once. -/
theorem invertingInitBitInvertsTheBits : Obligations.InvertingInitBitInvertsTheBits := by
  intro c s t src h _ noFault
  obtain ⟨fits, rfl⟩ := demodOp_completed h noFault
  have count : (demodulated c src (withInitBit (!s.cfg.initBit) s)).bitcnt = (demodulated c src s).bitcnt := by
    rw [demodulated_bitcnt, demodulated_bitcnt, srcLength_withInitBit]
    rfl
  refine ⟨demodulated c src (withInitBit (!s.cfg.initBit) s), demodOp_of_fits (demodFits_withInitBit fits _),
    count, fun j hj => ?_⟩
  rw [readBit_demodulated_of_lt hj, readBit_demodulated_of_lt (by rwa [count]), ← bitAfter_withInitBit_not]
  rfl

/-- Settles O23: pair `k + 1` is a reversal exactly where `B` changes from `k` to `k + 1`, so the bits are those of `B`. -/
theorem demodulationInvertsModulation : Obligations.DemodulationInvertsModulation := by
  intro c s t src chunkOf B chunks products init _ h noFault j hj
  obtain ⟨_, rfl⟩ := demodOp_completed h noFault
  have pairs : ∀ k, k < s.nbits.toNat →
      c.num.isNeg (pairSum c s (srcSpace src) s.start.toNat (k + 1)) = (B k != B (k + 1)) := fun k hk => by
    rw [pairSum_of_chunks (chunks k · (by omega)) (chunks (k + 1) · (by omega)), products]
  have in_range : j + 1 ≤ s.nbits.toNat := by
    rw [toNat_bitcnt_demodulated] at hj
    exact hj.trans_le (bitsProduced_le ..)
  rw [readBit_demodulated_of_lt hj, bitAfter_eq_of_reversals init pairs in_range]

end Sys2Proof.Machine

/-! ## The frame bit packer

What PACK does as one equation per answer, and FLEN and FMEM after it (R85). A byte sees only its own eight bits, so the frame
is the same for any BMEM that agrees below the last whole byte (R86). -/

namespace Sys2Proof.Machine

section

variable {c : Config} {s : State}

/-! ### What PACK answers, and the frame after it -/

theorem exec_pack_of_badCount (bad : Config.hw.bMax < s.bitcnt.toNat) :
    exec .pack s = .next (raiseFault .badCount (enterStage .pack s)) := by
  rcases packStage_cases Config.hw s with ⟨_, e⟩ | ⟨good, _⟩
  · rw [exec_pack, e, Run.finish_faulted]
  · omega

/-- The state in which a PACK that completes ends. -/
def packed (c : Config) (s : State) : State := complete (storeFrame c (enterStage .pack s))

theorem exec_pack_of_count (good : s.bitcnt.toNat ≤ Config.hw.bMax) : exec .pack s = .next (packed Config.hw s) := by
  rw [exec_pack, packStage_done_iff.2 ⟨good, rfl⟩, Run.finish_done, packed]

theorem packed_flen : (packed c s).flen = BitVec.ofNat 32 (s.bitcnt.toNat / 8) := by
  rw [packed, complete_flen, storeFrame_flen, enterStage_bitcnt]

theorem toNat_flen_packed : (packed c s).flen.toNat = s.bitcnt.toNat / 8 := by
  rw [packed_flen, bytesPacked_toNat]

/-- FMEM after PACK, in terms of the state before it: the bits packed below FLEN, the old bytes from there on. -/
theorem readByte_packed (q : Nat) :
    readByte c (packed c s) q = if q < (packed c s).flen.toNat then packedByte c s q else readByte c s q := by
  rw [toNat_flen_packed, packed, readByte_complete, readByte_storeFrame, readByte_enterStage, enterStage_bitcnt,
    packedByte_congr c (enterStage_bmem s .pack) (enterStage_epoch s .pack)]

/-! ### What the frame depends on (R86) -/

theorem packBits_congr {b b' : Nat → Bool} {n : Nat} (agree : ∀ t, t < n → b t = b' t) :
    packBits b n = packBits b' n := by
  induction n with
  | zero => rfl
  | succ n ih => rw [packBits, packBits, ih fun t ht => agree t (by omega), agree n (by omega)]

theorem packedByte_eq_of_bits {s t : State} {q : Nat} (agree : ∀ j, j < 8 * (q + 1) → readBit c s j = readBit c t j) :
    packedByte c s q = packedByte c t q := by
  rw [packedByte, packedByte, packBits_congr fun t ht => agree (8 * q + t) (by omega)]

theorem Memory.storeUpTo_congr {α : Type} {f g : Nat → α} (m : Memory α) {n : Nat} (agree : ∀ j, j < n → f j = g j) :
    Memory.storeUpTo f m n = Memory.storeUpTo g m n := by
  induction n with
  | zero => rfl
  | succ n ih => rw [Memory.storeUpTo, Memory.storeUpTo, ih fun j hj => agree j (by omega), agree n (by omega)]

/-- The state with BMEM replaced and nothing else. -/
def withBits (m : Memory Bool) (s : State) : State := { s with bmem := m }

/-- The whole bytes agree, so replacing BMEM before PACK or after it comes to the same. -/
theorem packed_withBits {m : Memory Bool}
    (agree : ∀ j, j < 8 * (s.bitcnt.toNat / 8) → readBit c (withBits m s) j = readBit c s j) :
    packed c (withBits m s) = withBits m (packed c s) := by
  have bytes : ∀ q, q < s.bitcnt.toNat / 8 →
      packedByte c (enterStage .pack (withBits m s)) q = packedByte c (enterStage .pack s) q :=
    fun q hq => packedByte_eq_of_bits fun j hj => agree j (by omega)
  have frame : (packed c (withBits m s)).fmem = (packed c s).fmem := Memory.storeUpTo_congr s.fmem bytes
  exact congrArg (fun f => { withBits m (packed c s) with fmem := f }) frame

end

/-! ### The statements -/

/-- Settles O24: the two answers of PACK, and FMEM below and from FLEN on. -/
theorem packPacksMostSignificantFirst : Obligations.PackPacksMostSignificantFirst := by
  intro s
  refine ⟨fun bad => exec_pack_of_badCount bad,
    fun good => ⟨_, exec_pack_of_count good, rfl, toNat_flen_packed, fun q below => ?_, fun q above => ?_⟩⟩
  · rw [readByte_packed, if_pos below, packedByte_toNat]
  · rw [readByte_packed, if_neg (by omega)]

/-- Settles O25: the check of BITCNT does not look at BMEM, and the frame is packed from whole bytes only. -/
theorem remainderBitsInfluenceNothing : Obligations.RemainderBitsInfluenceNothing := by
  intro s m agree
  by_cases good : s.bitcnt.toNat ≤ Config.hw.bMax
  · have other : exec .pack (withBits m s) = .next (withBits m (packed Config.hw s)) := by
      rw [exec_pack_of_count (s := withBits m s) good, packed_withBits agree]
    refine ⟨_, exec_pack_of_count good, other, fun _ => toNat_flen_packed, fun few => ?_⟩
    rw [packed_flen, Nat.div_eq_of_lt few]
    rfl
  · have bad : Config.hw.bMax < s.bitcnt.toNat := by omega
    have capacity := Config.hw.bMax_ge
    exact ⟨_, exec_pack_of_badCount bad, exec_pack_of_badCount (s := withBits m s) bad,
      fun legal => absurd legal good, fun few => by omega⟩

end Sys2Proof.Machine

/-! ## The modulo-255 checksum

What CHECK and CSGEN do as one equation per answer, with VALID and CSUM after them (R88, R89). What the check catches (R90) is
then about the bytes alone: a write to FMEM updates the bytes at one index, and a byte of the payload counts in the sum once. -/

namespace Sys2Proof.Machine

section

variable {c : Config} {s : State}

/-! ### What CHECK answers, and VALID after it -/

theorem exec_check_of_badCount (bad : Config.hw.fMax < s.flen.toNat) :
    exec .check s = .next (raiseFault .badCount (enterStage .check (clearValid s))) := by
  rcases checkStage_cases Config.hw (clearValid s) with ⟨_, e⟩ | ⟨good, _⟩
  · rw [exec_check, e, Run.finish_faulted]
  · rw [clearValid_flen] at good
    omega

/-- The state in which a CHECK that completes ends. -/
def checked (c : Config) (s : State) : State := complete (storeValid c (enterStage .check (clearValid s)))

theorem exec_check_of_count (good : s.flen.toNat ≤ Config.hw.fMax) : exec .check s = .next (checked Config.hw s) := by
  rw [exec_check, (checkStage_done_iff (s := clearValid s)).2 ⟨good, rfl⟩, Run.finish_done, checked]

/-- VALID was cleared at acceptance, so after CHECK it says whether the frame passes. -/
theorem checked_valid_iff : (checked c s).status.valid = true ↔ FrameValid c s := by
  have same_frame : framePasses c (enterStage .check (clearValid s)) = framePasses c s :=
    framePasses_congr c rfl rfl rfl
  have valid : (checked c s).status.valid = framePasses c s := by
    rw [← same_frame]
    exact Bool.or_false _
  rw [valid, framePasses_iff]

/-! ### What CSGEN answers, and CSUM after it -/

theorem exec_csgen_of_badCount (bad : Config.hw.fMax < s.flen.toNat) :
    exec .csgen s = .next (raiseFault .badCount (enterStage .csgen s)) := by
  rcases csgenStage_cases Config.hw s with ⟨_, e⟩ | ⟨good, _⟩
  · rw [exec_csgen, e, Run.finish_faulted]
  · omega

/-- A frame below three bytes is within every capacity, so BAD_COUNT does not come first. -/
theorem exec_csgen_of_shortFrame (short : s.flen.toNat < 3) :
    exec .csgen s = .next (raiseFault .shortFrame (enterStage .csgen s)) := by
  have capacity := Config.hw.four_le_fMax
  rcases csgenStage_cases Config.hw s with ⟨bad, _⟩ | ⟨_, ⟨_, e⟩ | ⟨long, _⟩⟩
  · omega
  · rw [exec_csgen, e, Run.finish_faulted]
  · omega

theorem exec_csgen_of_count (long : 3 ≤ s.flen.toNat) (good : s.flen.toNat ≤ Config.hw.fMax) :
    exec .csgen s = .next (complete (storeChecksum Config.hw (enterStage .csgen s))) := by
  rw [exec_csgen, csgenStage_done_iff.2 ⟨⟨long, good⟩, rfl⟩, Run.finish_done]

theorem toNat_csum_storeChecksum : (storeChecksum c s).csum.toNat = frameChecksum c s := by
  have small := frameChecksum_lt c s
  rw [storeChecksum_csum, BitVec.toNat_ofNat, Nat.mod_eq_of_lt (by omega)]

end

/-! ### The check as a test of the bytes (R90) -/

section

variable {f : Nat → Byte}

/-- The sum of the payload bytes, over the natural numbers (R87). -/
def payloadSum (f : Nat → Byte) : Nat := (f 0).toNat + (f 1).toNat + (f 2).toNat

/-- Byte 3 is the checksum of the payload (R87, R88). -/
def ChecksumMatches (f : Nat → Byte) : Prop := payloadSum f % 255 = (f 3).toNat

theorem payloadSum_update_checksum (v : Byte) : payloadSum (Function.update f 3 v) = payloadSum f := by
  simp [payloadSum]

/-- A payload byte counts in the sum once. -/
theorem payloadSum_update_add {q : Nat} (hq : q < 3) (v : Byte) :
    payloadSum (Function.update f q v) + (f q).toNat = payloadSum f + v.toNat := by
  interval_cases q <;> simp [payloadSum] <;> omega

theorem checksumMatches_update_checksum (v : Byte) :
    ChecksumMatches (Function.update f 3 v) ↔ payloadSum f % 255 = v.toNat := by
  rw [ChecksumMatches, payloadSum_update_checksum, Function.update_self]

/-- A frame with its checksum in byte 3 passes. -/
theorem checksumMatches_of_checksum : ChecksumMatches (Function.update f 3 (BitVec.ofNat 8 (payloadSum f % 255))) := by
  have fits : payloadSum f % 255 < 2 ^ 8 := by omega
  rw [checksumMatches_update_checksum, BitVec.toNat_ofNat, Nat.mod_eq_of_lt fits]

/-- R90 (a): the payload has one checksum. -/
theorem not_checksumMatches_update_checksum (matches_before : ChecksumMatches f) {v : Byte} (changed : v ≠ f 3) :
    ¬ChecksumMatches (Function.update f 3 v) := by
  rw [checksumMatches_update_checksum, matches_before, BitVec.toNat_inj]
  exact changed.symm

/-- R90 (b): the two sums differ by less than 256, so they agree modulo 255 only when they differ by 255. -/
theorem checksumMatches_update_payload_iff (matches_before : ChecksumMatches f) {q : Nat} (hq : q < 3) {v : Byte}
    (changed : v ≠ f q) :
    ChecksumMatches (Function.update f q v) ↔ f q = 0 ∧ v = 255 ∨ f q = 255 ∧ v = 0 := by
  have sums := payloadSum_update_add (f := f) hq v
  have differ : v.toNat ≠ (f q).toNat := fun e => changed (BitVec.eq_of_toNat_eq e)
  have old := (f q).isLt
  have new := v.isLt
  rw [ChecksumMatches, Function.update_of_ne (by omega), ← matches_before]
  simp only [← BitVec.toNat_inj, BitVec.reduceToNat]
  omega

/-- R90 (c): byte 3 is kept, and it is the checksum of the old payload. -/
theorem checksumMatches_new_payload_iff (matches_before : ChecksumMatches f) (a b c : Byte) :
    ChecksumMatches (Function.update (Function.update (Function.update f 0 a) 1 b) 2 c) ↔
      (a.toNat + b.toNat + c.toNat) % 255 = payloadSum f % 255 := by
  rw [matches_before]
  simp [ChecksumMatches, payloadSum]

end

section

variable {c : Config} {s : State}

/-- The state with FMEM replaced and nothing else. -/
def withFrame (m : Memory Byte) (s : State) : State := { s with fmem := m }

theorem readByte_withFrame_store (m : Memory Byte) (i : Nat) (v : Byte) :
    readByte c (withFrame (Memory.store m i v) s) = Function.update (readByte c (withFrame m s)) i v := by
  funext j
  rw [Function.update_apply]
  exact Memory.getD_lookup_store ..

/-- For a legal length of at least 4, CHECK sets VALID exactly when byte 3 is the checksum. -/
theorem exec_check_valid_iff (long : 4 ≤ s.flen.toNat) (good : s.flen.toNat ≤ Config.hw.fMax) :
    (∃ t, exec .check s = .next t ∧ t.status.valid = true) ↔ ChecksumMatches (readByte Config.hw s) := by
  simp only [exec_check_of_count good, Host.Outcome.next.injEq, exists_eq_left', checked_valid_iff]
  exact and_iff_right long

end

/-! ### The statements -/

/-- Settles O26: the two answers of CHECK, and VALID after it. -/
theorem checkSetsValid : Obligations.CheckSetsValid :=
  fun _ => ⟨fun bad => exec_check_of_badCount bad, fun good => ⟨_, exec_check_of_count good, rfl, checked_valid_iff⟩⟩

/-- Settles O27: the three answers of CSGEN, and CSUM as a number. -/
theorem csgenWritesTheChecksum : Obligations.CsgenWritesTheChecksum :=
  fun _ => ⟨fun bad => exec_csgen_of_badCount bad, fun short => exec_csgen_of_shortFrame short,
    fun long good => ⟨_, exec_csgen_of_count long good, rfl, toNat_csum_storeChecksum⟩⟩

/-- Settles O28: VALID after CHECK is a test of the bytes, and each write to FMEM is an update of them. -/
theorem whatTheCheckCatches : Obligations.WhatTheCheckCatches := by
  intro s long good passes f
  have passes_iff (m : Memory Byte) : passes m ↔ ChecksumMatches (readByte Config.hw (withFrame m s)) :=
    exec_check_valid_iff (s := withFrame m s) long good
  have unchanged : readByte Config.hw (withFrame s.fmem s) = f := rfl
  simp only [passes_iff, readByte_withFrame_store, unchanged]
  exact ⟨checksumMatches_of_checksum, fun matches_before =>
    ⟨fun v changed => not_checksumMatches_update_checksum matches_before changed,
      fun q v hq changed => checksumMatches_update_payload_iff matches_before hq changed,
      checksumMatches_new_payload_iff matches_before⟩⟩

end Sys2Proof.Machine

/-! ## The decode pipeline

What a DECODE that completes leaves, stage by stage (R91): each output in terms of the outputs of the stage before, as the
final state itself holds them. From there the outputs of two DECODEs are compared stage by stage (R94). -/

namespace Sys2Proof.Machine

section

variable {c : Config} {s t : State}

/-! ### What a completed DECODE leaves -/

/-- The conditions under which DECODE completes (R91, R97). -/
def DecodeFits (c : Config) (s : State) : Prop :=
  (1 ≤ s.xlen.toNat ∧ s.xlen.toNat ≤ c.nMax) ∧
    (1 ≤ s.rlen.toNat ∧ s.rlen.toNat ≤ c.rMax ∧ s.rlen.toNat ≤ s.xlen.toNat) ∧
    s.cfg.mode = .differential ∧ 2 ≤ s.chunk.toNat

/-- The state in which a DECODE that completes ends. -/
def decoded (c : Config) (s : State) : State := complete (afterCheck c (clearValid s))

theorem exec_decode_of_fits (fits : DecodeFits Config.hw s) : exec .decode s = .next (decoded Config.hw s) := by
  rw [exec_decode, (decodeStages_done_iff (s := clearValid s)).2 ⟨fits, rfl⟩, Run.finish_done, decoded]

theorem exec_decode_completed (h : exec .decode s = .next t) (noFault : t.status.err = none) :
    DecodeFits Config.hw s ∧ t = decoded Config.hw s := by
  obtain ⟨u, hu, rfl⟩ := Run.done_of_finish h noFault
  obtain ⟨fits, rfl⟩ := decodeStages_done_iff.1 hu
  exact ⟨fits, rfl⟩

theorem readSample_decoded : readSample c (decoded c s) = readSample c (afterFilter c (clearValid s)) :=
  readSample_congr_all c rfl rfl rfl rfl rfl

/-- An element of the convolution sees no more than the input below XLEN and the kernel (R70). -/
theorem fullConvolution_eq_of_samples {n : Nat} (xlen : s.xlen = t.xlen)
    (input : ∀ i, i < s.xlen.toNat → readSample c s .xmem i = readSample c t .xmem i)
    (kernel : ∀ k, k < 128 → readSample c s .hmem k = readSample c t .hmem k) :
    fullConvolution c s n = fullConvolution c t n := by
  refine loopSum_congr c.num _ (fun _ _ => by rw [xlen]) fun k hk taken => ?_
  simp only [Bool.and_eq_true, decide_eq_true_eq] at taken
  rw [kernel k hk, input _ taken.2]

/-- YMEM after DECODE: the filtered input below XLEN, the old elements from there on (R69). -/
theorem readSample_ymem_decoded (i : Nat) :
    readSample c (decoded c s) .ymem i =
      if i < s.xlen.toNat then fullConvolution c s (i + 63) else readSample c s .ymem i := by
  rw [readSample_decoded, readSample_ymem_afterFilter, readSample_clearValid]
  rfl

/-- A lag sum sees no more of the waveform and the reference than RLEN samples of each. -/
theorem lagSum_eq_of_samples {sp : SampleSpace} {j : Nat} (rlen : s.rlen = t.rlen)
    (wave : ∀ k, k < s.rlen.toNat → readSample c s sp (j + k) = readSample c t sp (j + k))
    (ref : ∀ k, k < s.rlen.toNat → readSample c s .rmem k = readSample c t .rmem k) :
    lagSum c s sp j = lagSum c t sp j := by
  rw [lagSum, lagSum, ← rlen]
  exact loopSum_congr c.num _ (fun _ _ => rfl) fun k hk _ => by rw [wave k hk, ref k hk]

/-- SYNC after DECODE: the peak end of R75 in the YMEM that DECODE leaves. -/
theorem toNat_sync_decoded (fits : s.rlen.toNat ≤ s.xlen.toNat) :
    (decoded c s).sync.toNat =
      loopPeak c.num (lagSum c (decoded c s) .ymem) (s.xlen.toNat - s.rlen.toNat) + s.rlen.toNat := by
  have sums : lagSum c (decoded c s) .ymem = lagSum c (afterFilter c (clearValid s)) .ymem :=
    funext fun _ => lagSum_eq_of_samples rfl (fun _ _ => by rw [readSample_decoded])
      fun _ _ => by rw [readSample_decoded]
  rw [sums, ← peakLag_eq_loopPeak]
  exact toNat_sync_storeSync_enterStage (src := .y) fits

theorem toNat_bitcnt_decoded :
    (decoded c s).bitcnt.toNat = bitsProduced s.xlen.toNat s.chunk.toNat (decoded c s).sync.toNat payloadBits :=
  bitsProduced_toNat _ _ _ _ (by decide)

/-- The chunk of the last bit lies inside the waveform (R80). -/
theorem decoded_last_chunk_fits (chunk : 0 < s.chunk.toNat) (some_bit : (decoded c s).bitcnt.toNat ≠ 0) :
    ((decoded c s).bitcnt.toNat + 1) * s.chunk.toNat + (decoded c s).sync.toNat ≤ s.xlen.toNat := by
  rw [toNat_bitcnt_decoded] at some_bit ⊢
  exact last_chunk_fits chunk some_bit

/-- BMEM after DECODE: the bits of R82 from SYNC in the YMEM that DECODE leaves, the old bits from BITCNT on. -/
theorem readBit_decoded (j : Nat) :
    readBit c (decoded c s) j =
      if j < (decoded c s).bitcnt.toNat then bitAfter c (decoded c s) .ymem (decoded c s).sync.toNat (j + 1)
      else readBit c s j := by
  have bit : bitAfter c (enterStage .demod (afterSync c (clearValid s))) .ymem (decoded c s).sync.toNat (j + 1) =
      bitAfter c (decoded c s) .ymem (decoded c s).sync.toNat (j + 1) :=
    bitAfter_congr c rfl rfl (readSample_congr_all c rfl rfl rfl rfl rfl) _ _ _
  have running := runningBit_eq c (enterStage .demod (afterSync c (clearValid s))) .y (decoded c s).sync.toNat (j + 1)
  rw [toNat_bitcnt_decoded, ← (running s.bmem).trans bit]
  exact readBit_storeBits ..

theorem toNat_flen_decoded : (decoded c s).flen.toNat = (decoded c s).bitcnt.toNat / 8 :=
  toNat_flen_packed (c := c) (s := afterDemod c (clearValid s))

/-- FMEM after DECODE is that of a PACK after the demodulation stage, which left the bits that DECODE leaves. -/
theorem readByte_decoded (q : Nat) :
    readByte c (decoded c s) q =
      if q < (decoded c s).flen.toNat then packedByte c (decoded c s) q else readByte c s q :=
  readByte_packed (s := afterDemod c (clearValid s)) q

/-- VALID after DECODE is that of a CHECK after the pack stage. -/
theorem decoded_valid_iff : (decoded c s).status.valid = true ↔ FrameValid c (decoded c s) :=
  checked_valid_iff (s := afterPack c (clearValid s))

/-! ### What the results depend on -/

/-- The two states agree on what DECODE reads (R94). -/
structure DecodeInputsAgree (c : Config) (s t : State) : Prop where
  xlen : s.xlen = t.xlen
  rlen : s.rlen = t.rlen
  chunk : s.chunk = t.chunk
  cfg : s.cfg = t.cfg
  input : ∀ i, i < s.xlen.toNat → readSample c s .xmem i = readSample c t .xmem i
  kernel : ∀ k, k < 128 → readSample c s .hmem k = readSample c t .hmem k
  reference : ∀ k, k < s.rlen.toNat → readSample c s .rmem k = readSample c t .rmem k

/-- A bit sees no more of the waveform than the chunks up to its own. -/
theorem bitAfter_eq_of_samples {src : Src} {start m n : Nat} (chunk : s.chunk = t.chunk) (cfg : s.cfg = t.cfg)
    (wave : ∀ i, i < n → readSample c s (srcSpace src) i = readSample c t (srcSpace src) i)
    (inside : (m + 1) * s.chunk.toNat + start ≤ n) :
    bitAfter c s (srcSpace src) start m = bitAfter c t (srcSpace src) start m := by
  induction m with
  | zero => rw [bitAfter_zero, bitAfter_zero, cfg]
  | succ m ih =>
    simp only [Nat.succ_mul] at inside ih
    have pair : pairSum c s (srcSpace src) start (m + 1) = pairSum c t (srcSpace src) start (m + 1) := by
      rw [pairSum_of_chunks (fun i hi => wave _ (by omega)) fun i hi => wave _ (by rw [Nat.succ_mul]; omega), chunk]
      exact (pairSum_of_chunks (fun _ _ => rfl) fun _ _ => rfl).symm
    rw [bitAfter_succ, bitAfter_succ, ih (by omega), pair]

theorem frameValid_iff_of_bytes (flen : s.flen = t.flen)
    (bytes : ∀ q, q < s.flen.toNat → readByte c s q = readByte c t q) : FrameValid c s ↔ FrameValid c t := by
  rw [FrameValid, FrameValid, ← flen]
  refine and_congr_right fun long => ?_
  rw [bytes 0 (by omega), bytes 1 (by omega), bytes 2 (by omega), bytes 3 (by omega)]

section

variable (h : DecodeInputsAgree c s t)
include h

theorem DecodeInputsAgree.firstFault_eq : firstFault c .decode s = firstFault c .decode t := by
  simp only [firstFault, h.xlen, h.rlen, h.chunk, h.cfg]

theorem DecodeInputsAgree.ymem_eq {i : Nat} (hi : i < s.xlen.toNat) :
    readSample c (decoded c s) .ymem i = readSample c (decoded c t) .ymem i := by
  rw [readSample_ymem_decoded, readSample_ymem_decoded, ← h.xlen, if_pos hi, if_pos hi,
    fullConvolution_eq_of_samples h.xlen h.input h.kernel]

section

variable (fits : DecodeFits c s)
include fits

theorem DecodeInputsAgree.sync_eq : (decoded c s).sync = (decoded c t).sync := by
  obtain ⟨_, ⟨_, _, within⟩, _⟩ := fits
  have sums : ∀ j, j ≤ s.xlen.toNat - s.rlen.toNat →
      lagSum c (decoded c s) .ymem j = lagSum c (decoded c t) .ymem j := fun j hj =>
    lagSum_eq_of_samples h.rlen (fun k (hk : k < s.rlen.toNat) => h.ymem_eq (by omega)) h.reference
  apply BitVec.eq_of_toNat_eq
  rw [toNat_sync_decoded within, toNat_sync_decoded (by rwa [← h.xlen, ← h.rlen]), ← h.xlen, ← h.rlen,
    ← peakLag_eq_loopPeak, ← peakLag_eq_loopPeak, peakLag_congr _ _ sums]

theorem DecodeInputsAgree.bitcnt_eq : (decoded c s).bitcnt.toNat = (decoded c t).bitcnt.toNat := by
  rw [toNat_bitcnt_decoded, toNat_bitcnt_decoded, h.xlen, h.chunk, h.sync_eq fits]

theorem DecodeInputsAgree.flen_eq : (decoded c s).flen = (decoded c t).flen := by
  apply BitVec.eq_of_toNat_eq
  rw [toNat_flen_decoded, toNat_flen_decoded, h.bitcnt_eq fits]

theorem DecodeInputsAgree.bits_eq {j : Nat} (hj : j < (decoded c s).bitcnt.toNat) :
    readBit c (decoded c s) j = readBit c (decoded c t) j := by
  have ⟨_, _, _, chunk⟩ := fits
  have room := decoded_last_chunk_fits (c := c) (s := s) (by omega) (by omega)
  have earlier : (j + 1 + 1) * s.chunk.toNat ≤ ((decoded c s).bitcnt.toNat + 1) * s.chunk.toNat :=
    Nat.mul_le_mul_right _ (by omega)
  rw [readBit_decoded, if_pos hj, readBit_decoded, if_pos (by rwa [← h.bitcnt_eq fits]), ← h.sync_eq fits]
  exact bitAfter_eq_of_samples (src := .y) h.chunk h.cfg (fun i => h.ymem_eq)
    ((Nat.add_le_add_right earlier _).trans room)

theorem DecodeInputsAgree.bytes_eq {q : Nat} (hq : q < (decoded c s).flen.toNat) :
    readByte c (decoded c s) q = readByte c (decoded c t) q := by
  rw [readByte_decoded, if_pos hq, readByte_decoded, if_pos (by rwa [← h.flen_eq fits])]
  rw [toNat_flen_decoded] at hq
  exact packedByte_eq_of_bits fun j hj => h.bits_eq fits (by omega)

theorem DecodeInputsAgree.valid_eq : (decoded c s).status.valid = (decoded c t).status.valid := by
  rw [Bool.eq_iff_iff, decoded_valid_iff, decoded_valid_iff]
  exact frameValid_iff_of_bytes (h.flen_eq fits) fun _ => h.bytes_eq fits

end

end

/-! ### How DECODE ends -/

/-- DECODE ends with the first fault of R97, or completes. -/
theorem exec_decode_cases (h : exec .decode s = .next t) :
    (∃ code st, firstFault Config.hw .decode s = some (code, st) ∧
      t.status = { busy := false, done := true, valid := false, err := some code } ∧ t.stage = st) ∨
    firstFault Config.hw .decode s = none ∧ DecodeFits Config.hw s ∧ t = decoded Config.hw s := by
  have stages := decodeStages_cases Config.hw (clearValid s)
  simp only [clearValid_xlen, clearValid_rlen, clearValid_cfg, clearValid_chunk] at stages
  simp only [firstFault]
  rcases stages with ⟨bad, e⟩ | ⟨length, ⟨bad, e⟩ | ⟨reference, ⟨bad, e⟩ | ⟨mode, ⟨bad, e⟩ | ⟨chunk, e⟩⟩⟩⟩ <;>
    rw [exec_decode, e] at h <;> cases h
  · exact .inl ⟨_, _, if_pos bad, rfl, rfl⟩
  · rw [if_neg (by omega), if_pos bad]
    exact .inl ⟨_, _, rfl, rfl, rfl⟩
  · rw [if_neg (by omega), if_neg (by omega), if_pos bad]
    exact .inl ⟨_, _, rfl, rfl, rfl⟩
  · rw [if_neg (by omega), if_neg (by omega), if_neg (by simp [mode]), if_pos bad]
    exact .inl ⟨_, _, rfl, rfl, rfl⟩
  · rw [if_neg (by omega), if_neg (by omega), if_neg (by simp [mode]), if_neg (by omega)]
    exact .inr ⟨rfl, ⟨length, reference, mode, chunk⟩, rfl⟩

theorem decoded_status (noFault : s.status.err = none) :
    (decoded c s).status = { busy := false, done := true, valid := (decoded c s).status.valid, err := none } := by
  rw [← noFault]
  rfl

end

/-! ### The statements -/

/-- Settles O29, output by output. -/
theorem decodeRunsTheFiveStages : Obligations.DecodeRunsTheFiveStages := by
  intro s xlen rlen reference within mode chunk
  have fits : DecodeFits Config.hw s := ⟨⟨rlen.trans within, xlen⟩, ⟨rlen, reference, within⟩, mode, chunk⟩
  refine ⟨_, exec_decode_of_fits fits, rfl, fun i below => ?_, fun i above => ?_, toNat_sync_decoded within,
    toNat_bitcnt_decoded, fun j below => ?_, fun j above => ?_, toNat_flen_decoded, fun q below => ?_,
    fun q above => ?_, decoded_valid_iff⟩
  · rw [readSample_ymem_decoded, if_pos below]
  · rw [readSample_ymem_decoded, if_neg (by omega)]
  · rw [readBit_decoded, if_pos below]
  · rw [readBit_decoded, if_neg (by omega)]
  · rw [readByte_decoded, if_pos below, packedByte_toNat]
  · rw [readByte_decoded, if_neg (by omega)]

/-- Settles O31: the first fault depends on the registers only, and without one the outputs agree stage by stage. -/
theorem decodeDependsOnItsInputsOnly : Obligations.DecodeDependsOnItsInputsOnly := by
  intro s s' t t' noFault noFault' xlen rlen chunk cfg input kernel reference run run'
  have agree : DecodeInputsAgree Config.hw s s' := ⟨xlen, rlen, chunk, cfg, input, kernel, reference⟩
  rcases exec_decode_cases run with ⟨code, st, first, status, stage⟩ | ⟨first, fits, rfl⟩ <;>
    rcases exec_decode_cases run' with ⟨code', st', first', status', stage'⟩ | ⟨first', _, rfl⟩ <;>
    rw [← agree.firstFault_eq, first] at first' <;> cases first'
  · exact ⟨status.trans status'.symm, stage.trans stage'.symm, fun completed => by simp [status] at completed⟩
  · refine ⟨?_, rfl, fun _ => ⟨agree.sync_eq fits, agree.flen_eq fits, fun q => agree.bytes_eq fits⟩⟩
    rw [decoded_status noFault, decoded_status noFault', agree.valid_eq fits]

/-- Settles O32: 32 bits need 33 chunks, four bytes need 32 bits, and a valid frame needs four bytes. -/
theorem shortWaveformNeverValid : Obligations.ShortWaveformNeverValid := by
  intro s t _ run completed short
  obtain ⟨⟨_, _, _, chunk⟩, rfl⟩ := exec_decode_completed run completed
  have at_most : (decoded Config.hw s).bitcnt.toNat ≤ 32 := toNat_bitcnt_decoded.trans_le (bitsProduced_le ..)
  have not_full : (decoded Config.hw s).bitcnt.toNat ≠ 32 := fun full => by
    have room := decoded_last_chunk_fits (c := Config.hw) (s := s) (by omega) (by omega)
    rw [full] at room
    omega
  have bytes : (decoded Config.hw s).flen.toNat < 4 := by
    rw [toNat_flen_decoded]
    omega
  refine ⟨Bool.eq_false_iff.2 fun valid => ?_, by omega, bytes⟩
  obtain ⟨long, _⟩ := decoded_valid_iff.1 valid
  omega

end Sys2Proof.Machine

/-! ## DECODE and the sequence of its parts

A simulation (R92): after each command of the host's sequence the block stands where the stages of DECODE stand that
correspond to the commands so far. A stage sees nothing of CMD, START, NBITS, STATUS and the host's pending accesses, so
each command takes related states to related states; a fault stops DECODE and makes the block ignore the rest of the
sequence. -/

namespace Sys2Proof.Machine

section

variable {c : Config} {b : Bool} {r : Run} {stage : State → Run} {p q u v t : State}

/-! ### What the stages do not look at -/

/-- The state `p` with what is the host's as it is in `k`: CMD, START, NBITS, STATUS and the pending accesses. -/
def hostedBy (k p : State) : State :=
  { p with cmd := k.cmd, start := k.start, nbits := k.nbits, status := k.status, pending := k.pending }

/-- The same run in the state that `k` is host of, if no stage looks at what is the host's. -/
def Run.hostedBy (k : State) : Run → Run
  | .done p => .done (Machine.hostedBy k p)
  | .faulted code p => .faulted code (Machine.hostedBy k p)

/-- The stage looks neither at what is the host's nor at STAGE. -/
def IgnoresHost (stage : State → Run) : Prop :=
  ∀ (p k : State) (st : Stage), stage (enterStage st (hostedBy k p)) = (stage p).hostedBy k

theorem filterStage_ignoresHost : IgnoresHost (filterStage c) := by
  intro p k st
  simp only [filterStage, apply_ite (Run.hostedBy k)]
  rfl

theorem syncStage_ignoresHost (src : Src) : IgnoresHost (syncStage c src) := by
  intro p k st
  simp only [syncStage, apply_ite (Run.hostedBy k)]
  cases src <;> rfl

theorem demodStage_ignoresHost (src : Src) (start nb : Nat) : IgnoresHost (demodStage c src start nb) := by
  intro p k st
  simp only [demodStage, apply_ite (Run.hostedBy k)]
  cases src <;> rfl

theorem packStage_ignoresHost : IgnoresHost (packStage c) := by
  intro p k st
  simp only [packStage, apply_ite (Run.hostedBy k)]
  rfl

/-- A stage that does not look at STATUS does not write it: it takes the state to itself with STATUS put back. -/
theorem IgnoresHost.status_eq (hs : IgnoresHost stage) (h : stage p = .done q) : q.status = p.status := by
  have same : stage p = (stage p).hostedBy p := hs p p p.stage
  rw [h, Run.hostedBy] at same
  have back : q = Machine.hostedBy p q := Run.done.inj same
  rw [back]
  rfl

theorem hostedBy_acceptCommand {st : Stage} (e : v = enterStage st (hostedBy v p)) (w : Word) :
    acceptCommand w v = enterStage st (hostedBy (acceptCommand w v) p) :=
  (congrArg (acceptCommand w) e).trans rfl

theorem Run.andThen_assoc (r : Run) (f g : State → Run) :
    (r.andThen f).andThen g = r.andThen fun s => (f s).andThen g := by
  cases r <;> rfl

/-! ### The simulation -/

/-- The sequence, in `v`, has come as far as the stages of DECODE that ended in `r`; VALID is `b` as before the sequence,
while DECODE has cleared it. -/
def Follows (b : Bool) : Run → State → Prop
  | .done p, v =>
    (∃ st, v = enterStage st (hostedBy v p)) ∧
      (v.status.busy = false ∧ v.status.err = none ∧ v.status.valid = b) ∧ p.status.err = none ∧ p.status.valid = false
  | .faulted code p, v =>
    v = hostedBy v (raiseFault code p) ∧ v.status = { busy := false, done := true, valid := b, err := some code }

theorem Follows.idle (h : Follows b r v) : Idle v := by
  cases r with
  | done p =>
    obtain ⟨_, ⟨busy, _⟩, _⟩ := h
    exact busy
  | faulted code p =>
    obtain ⟨_, status⟩ := h
    rw [Idle, status]

/-- `Follows` with what is the host's: START, NBITS and the accesses still to come. -/
structure SequenceAt (b : Bool) (start nbits : Word) (pending : List HostAccess) (r : Run) (v : State) : Prop where
  follows : Follows b r v
  start_eq : v.start = start
  nbits_eq : v.nbits = nbits
  pending_eq : v.pending = pending

section

variable {start nbits x w : Word} {i : Instr} {rest : List HostAccess}

/-- START, NBITS and the pending accesses may be any. -/
theorem Follows.sequenceAt (h : Follows b r v) (start nbits : Word) (pending : List HostAccess) :
    SequenceAt b start nbits pending r { v with start, nbits, pending } := by
  refine ⟨?_, rfl, rfl, rfl⟩
  cases r with
  | done p =>
    obtain ⟨⟨st, e⟩, others⟩ := h
    exact ⟨⟨st, congrArg (fun u => { u with start, nbits, pending }) e⟩, others⟩
  | faulted code p =>
    obtain ⟨e, status⟩ := h
    exact ⟨congrArg (fun u => { u with start, nbits, pending }) e, status⟩

theorem SequenceAt.take {a : HostAccess} (h : SequenceAt b start nbits (a :: rest) r v) :
    SequenceAt b start nbits rest r { v with pending := rest } := by
  obtain ⟨follows, rfl, rfl, _⟩ := h
  exact follows.sequenceAt v.start v.nbits rest

theorem SequenceAt.step_writeStart (h : SequenceAt b start nbits (.writeReg 7 x :: rest) r v) :
    ∃ v', step v = .next v' ∧ SequenceAt b x nbits rest r v' := by
  have idle : Idle { v with pending := rest } := h.take.follows.idle
  refine ⟨_, step_hostAccess h.pending_eq nofun, ?_⟩
  rw [hostAccess_writeReg_named (r := .start) idle rfl, ← h.nbits_eq]
  exact h.take.follows.sequenceAt x v.nbits rest

theorem SequenceAt.step_writeNbits (h : SequenceAt b start nbits (.writeReg 8 x :: rest) r v) :
    ∃ v', step v = .next v' ∧ SequenceAt b start x rest r v' := by
  have idle : Idle { v with pending := rest } := h.take.follows.idle
  refine ⟨_, step_hostAccess h.pending_eq nofun, ?_⟩
  rw [hostAccess_writeReg_named (r := .nbits) idle rfl, ← h.start_eq]
  exact h.take.follows.sequenceAt v.start x rest

/-- A fault has halted the sequence too (R100). -/
theorem writeCommand_of_follows_fault {code : FaultCode} (h : Follows b (.faulted code p) v) (w : Word) :
    writeCommand w v = .next v := by
  obtain ⟨_, status⟩ := h
  exact writeCommand_of_not_accepted (by simp [status])

theorem SequenceAt.writeCommand (h : SequenceAt b start nbits rest r v) (hd : decode w = .ok i)
    (hs : IgnoresHost stage) (runs : ∀ u, u.start = start → u.nbits = nbits → exec i u = (stage u).finish) :
    ∃ v', writeCommand w v = .next v' ∧ SequenceAt b start nbits rest (r.andThen stage) v' := by
  cases r with
  | faulted code p => exact ⟨v, writeCommand_of_follows_fault h.follows w, h⟩
  | done p =>
    obtain ⟨⟨⟨st, e⟩, ⟨idle, noFault, valid⟩, noFault', valid'⟩, start_eq, nbits_eq, pending_eq⟩ := h
    have same : stage (acceptCommand w v) = (stage p).hostedBy (acceptCommand w v) :=
      (congrArg stage (hostedBy_acceptCommand e w)).trans (hs p (acceptCommand w v) st)
    rw [writeCommand_of_decode_ok idle noFault hd, runs (acceptCommand w v) start_eq nbits_eq, same, Run.andThen_done]
    cases hq : stage p with
    | done q =>
      have status := hs.status_eq hq
      exact ⟨_, rfl, ⟨⟨.idle, rfl⟩, ⟨rfl, noFault, valid⟩, status ▸ noFault', status ▸ valid'⟩, start_eq, nbits_eq,
        pending_eq⟩
    | faulted code q => exact ⟨_, rfl, ⟨rfl, by rw [← valid]; rfl⟩, start_eq, nbits_eq, pending_eq⟩

/-- One command of the sequence against one stage of DECODE. -/
theorem SequenceAt.step_command (h : SequenceAt b start nbits (.writeReg 0 w :: rest) r v) (hd : decode w = .ok i)
    (hs : IgnoresHost stage) (runs : ∀ u, u.start = start → u.nbits = nbits → exec i u = (stage u).finish) :
    ∃ v', step v = .next v' ∧ SequenceAt b start nbits rest (r.andThen stage) v' := by
  rw [step_writeCommand h.pending_eq]
  exact h.take.writeCommand hd hs runs

end

/-! ### The last command -/

/-- CHECK clears VALID first, so whoever the host is, STATUS comes out the same. -/
theorem checked_hostedBy {k : State} {st : Stage} (err : k.status.err = p.status.err) :
    checked c (enterStage st (hostedBy k p)) = hostedBy { k with status := (checked c p).status } (checked c p) := by
  have status : (checked c p).status = { (checked c p).status with err := k.status.err } := by rw [err]; rfl
  rw [status]
  rfl

/-- STATUS at the end of the sequence where that of DECODE is `status`: after a fault VALID is as before, `b`. -/
def sequenceStatus (b : Bool) (status : StatusReg) : StatusReg :=
  { status with valid := if status.err = none then status.valid else b }

theorem sequenceStatus_of_noFault {status : StatusReg} (noFault : status.err = none) :
    sequenceStatus b status = status := by
  rw [sequenceStatus, if_pos noFault]

/-- CHECK against the last stage of DECODE, whose count of bytes is legal. -/
theorem Follows.writeCommand_check (h : Follows b r v) (count : ∀ p, r = .done p → p.flen.toNat ≤ Config.hw.fMax)
    (ht : (r.andThen (checkStage Config.hw)).finish = .next t) :
    ∃ v', writeCommand 0x05 v = .next v' ∧ (v'.start = v.start ∧ v'.nbits = v.nbits ∧ v'.pending = v.pending) ∧
      v' = hostedBy { v' with status := sequenceStatus b t.status } t := by
  cases r with
  | faulted code p =>
    cases ht
    refine ⟨v, writeCommand_of_follows_fault h 0x05, ⟨rfl, rfl, rfl⟩, ?_⟩
    obtain ⟨e, status⟩ := h
    have same : sequenceStatus b (raiseFault code p).status = v.status := status.symm
    rw [same]
    exact e
  | done p =>
    obtain ⟨⟨st, e⟩, ⟨idle, noFault, _⟩, noFault', valid'⟩ := h
    have cleared : clearValid p = p := by rw [clearValid, ← valid']
    rw [Run.andThen_done, checkStage_done_iff.2 ⟨count p rfl, rfl⟩, Run.finish_done, ← cleared] at ht
    cases ht
    have flen : (acceptCommand 0x05 v).flen = p.flen := by rw [e]; rfl
    have noFault_checked : (checked Config.hw p).status.err = none := noFault'
    have same : checked Config.hw (acceptCommand 0x05 v) =
        hostedBy { acceptCommand 0x05 v with status := (checked Config.hw p).status } (checked Config.hw p) :=
      (congrArg (checked Config.hw) (hostedBy_acceptCommand e 0x05)).trans
        (checked_hostedBy (k := acceptCommand 0x05 v) (noFault.trans noFault'.symm))
    refine ⟨checked Config.hw (acceptCommand 0x05 v), ?_, ⟨rfl, rfl, rfl⟩, ?_⟩
    · rw [writeCommand_of_decode_ok (i := .check) idle noFault rfl, exec_check_of_count (flen ▸ count p rfl)]
    · rw [← sequenceStatus_of_noFault (b := b) noFault_checked] at same
      exact same

/-! ### DECODE as the stages of the sequence -/

theorem decodeStages_ne_badCount : decodeStages c p ≠ .faulted .badCount u := by
  rcases decodeStages_cases c p with ⟨_, e⟩ | ⟨_, ⟨_, e⟩ | ⟨_, ⟨_, e⟩ | ⟨_, ⟨_, e⟩ | ⟨_, e⟩⟩⟩⟩ <;> rw [e] <;> nofun

/-- So the count of bytes that comes to the check stage is legal. -/
theorem count_of_decodeStages (h : decodeStages c u = (Run.done p).andThen (checkStage c)) : p.flen.toNat ≤ c.fMax := by
  rcases checkStage_cases c p with ⟨_, e⟩ | ⟨count, _⟩
  · exact absurd (h.trans e) decodeStages_ne_badCount
  · exact count

/-- Stage 3 finds SYNC where the host copied it from. -/
theorem Follows.andThen_demodStage (h : Follows b r v) :
    r.andThen (demodStage c .y v.sync.toNat payloadBits) =
      r.andThen fun s => demodStage c .y s.sync.toNat payloadBits s := by
  cases r with
  | faulted code p => rfl
  | done p =>
    obtain ⟨⟨st, e⟩, _⟩ := h
    have sync : v.sync = p.sync := by rw [e]; rfl
    rw [sync]
    rfl

theorem decodeStages_eq_sequence (c : Config) (p : State) :
    decodeStages c p =
      (((((Run.done p).andThen (filterStage c)).andThen (syncStage c .y)).andThen
        fun s => demodStage c .y s.sync.toNat payloadBits s).andThen (packStage c)).andThen (checkStage c) := by
  simp only [decodeStages, Run.andThen_assoc, Run.andThen_done]

theorem core_run_succ (M : Host.Core) {n : Nat} {x y : M.State} (h : M.step x = .next y) :
    M.run (n + 1) x = M.run n y := by
  rw [Host.Core.run, h]

theorem run_succ {n : Nat} (h : step u = .next v) : Host.Core.run core (n + 1) u = Host.Core.run core n v :=
  core_run_succ core h

/-! ### The two parts of the sequence -/

/-- The state in which DECODE has been accepted, as the host's only access. -/
def decodeAccepted (s : State) : State := acceptCommand 0x07 { s with pending := [] }

theorem sequence_to_sync (idle : Idle p) (noFault : p.status.err = none) :
    ∃ u, Host.Core.run core 2 { p with pending := [.writeReg 0 0x01, .writeReg 0 0x12] } = .next u ∧
      Follows p.status.valid
        (((Run.done (clearValid (decodeAccepted p))).andThen (filterStage Config.hw)).andThen (syncStage Config.hw .y)) u := by
  have at_start : SequenceAt p.status.valid p.start p.nbits [.writeReg 0 0x01, .writeReg 0 0x12]
      (.done (clearValid (decodeAccepted p))) { p with pending := [.writeReg 0 0x01, .writeReg 0 0x12] } :=
    ⟨⟨⟨p.stage, rfl⟩, ⟨idle, noFault, rfl⟩, noFault, rfl⟩, rfl, rfl, rfl⟩
  obtain ⟨v, step1, at1⟩ := at_start.step_command (i := .bandpass) rfl filterStage_ignoresHost fun _ _ _ => rfl
  obtain ⟨u, step2, at2⟩ := at1.step_command (i := .findSync .y) rfl (syncStage_ignoresHost .y) fun _ _ _ => rfl
  exact ⟨u, (run_succ step1).trans (run_succ step2), at2.follows⟩

theorem sequence_from_sync (h : Follows b r u)
    (count : ∀ p, (r.andThen (demodStage Config.hw .y u.sync.toNat payloadBits)).andThen (packStage Config.hw) = .done p →
      p.flen.toNat ≤ Config.hw.fMax)
    (ht : (((r.andThen (demodStage Config.hw .y u.sync.toNat payloadBits)).andThen (packStage Config.hw)).andThen
      (checkStage Config.hw)).finish = .next t) :
    ∃ v, Host.Core.run core 5 { u with pending :=
        [.writeReg 7 u.sync, .writeReg 8 32, .writeReg 0 0x13, .writeReg 0 0x04, .writeReg 0 0x05] } = .next v ∧
      (v.start = u.sync ∧ v.nbits = 32 ∧ v.pending = []) ∧
      v = hostedBy { v with status := sequenceStatus b t.status } t := by
  obtain ⟨v1, step1, at1⟩ := (h.sequenceAt u.start u.nbits
    [.writeReg 7 u.sync, .writeReg 8 32, .writeReg 0 0x13, .writeReg 0 0x04, .writeReg 0 0x05]).step_writeStart
  obtain ⟨v2, step2, at2⟩ := at1.step_writeNbits
  obtain ⟨v3, step3, at3⟩ := at2.step_command (i := .demod .y) rfl
    (demodStage_ignoresHost .y u.sync.toNat payloadBits) fun w start nbits => by rw [exec_demod, start, nbits]; rfl
  obtain ⟨v4, step4, at4⟩ := at3.step_command (i := .pack) rfl packStage_ignoresHost fun _ _ _ => rfl
  obtain ⟨follows, start, nbits, pending⟩ := at4.take
  obtain ⟨v, step5, ⟨start', nbits', pending'⟩, ends⟩ := follows.writeCommand_check count ht
  rw [← step_writeCommand at4.pending_eq] at step5
  have run : Host.Core.run core 5 { u with pending :=
      [.writeReg 7 u.sync, .writeReg 8 32, .writeReg 0 0x13, .writeReg 0 0x04, .writeReg 0 0x05] } = .next v := by
    rw [run_succ step1, run_succ step2, run_succ step3, run_succ step4, run_succ step5]
    rfl
  exact ⟨v, run, ⟨start'.trans start, nbits'.trans nbits, pending'.trans pending⟩, ends⟩

end

/-! ### The statement -/

/-- Settles O30: the simulation up to the host's copy of SYNC, then on to CHECK, and DECODE's own frame for START and
NBITS. -/
theorem decodeEqualsItsParts : Obligations.DecodeEqualsItsParts := by
  intro s t idle noFault ht
  have accepted_noFault : (decodeAccepted s).status.err = none := noFault
  have run : exec .decode (decodeAccepted s) = .next t := by
    rw [decodeAccepted, ← writeCommand_of_decode_ok (s := { s with pending := [] }) idle noFault rfl,
      ← step_writeCommand (s := { s with pending := [.writeReg 0 0x07] }) rfl, ht]
  obtain ⟨u, run_u, follows⟩ := sequence_to_sync idle noFault
  have stages := decodeStages_eq_sequence Config.hw (clearValid (decodeAccepted s))
  rw [← follows.andThen_demodStage] at stages
  have finish := run
  rw [exec_decode, stages] at finish
  obtain ⟨v, run_v, ⟨start, nbits, pending⟩, ends⟩ :=
    sequence_from_sync follows (fun p hp => count_of_decodeStages (hp ▸ stages)) finish
  have registers := exec_inputRegisters run
  have fields := exec_modelFields run
  simp only [inputRegisters, modelFields, Prod.mk.injEq] at registers fields
  obtain ⟨_, _, _, _, _, start_t, nbits_t⟩ := registers
  obtain ⟨pending_t, _⟩ := fields
  have no_pending : v.pending = t.pending := pending.trans pending_t.symm
  refine ⟨u, v, run_u, run_v, ?_, start, nbits, start_t, nbits_t, exec_decode_valid_of_fault accepted_noFault run⟩
  rw [hostedBy, no_pending] at ends
  exact ends

end Sys2Proof.Machine

/-! ## Faults and the halted state

First how an operation that faults ends: a single operation in the state it began in, but for STATUS and STAGE (R99), and DECODE
after the stages before the faulting one, which stored what BANDPASS and FIND_SYNC Y would have. Then what a step does to a
halted block (R100, R101). -/

namespace Sys2Proof.Machine

section

variable {c : Config} {i : Instr} {s t : State} {code : FaultCode}

/-! ### How a single operation ends -/

/-- The only stage of an operation, begun in `p`, ends as the checks of R97 say: it completes and leaves ERR alone, or it
faults in the state it entered. -/
def Run.EndsFrom (p : State) (r : Run) : Option (FaultCode × Stage) → Prop
  | none => ∃ u, r = .done u ∧ u.status.err = p.status.err
  | some (code, st) => code ≠ .illegalCmd ∧ r = .faulted code (enterStage st p)

theorem firstFault_findSync (src : Src) :
    firstFault c (.findSync src) s =
      if srcLength src s = 0 ∨ c.nMax < srcLength src s then some (.badLen, .sync)
      else if s.rlen.toNat = 0 ∨ c.rMax < s.rlen.toNat ∨ srcLength src s < s.rlen.toNat then some (.badRef, .sync)
      else none := by
  cases src <;> rfl

theorem firstFault_demod (src : Src) :
    firstFault c (.demod src) s =
      if s.cfg.mode = .absolutePhase then some (.badMode, .demod)
      else if srcLength src s = 0 ∨ c.nMax < srcLength src s then some (.badLen, .demod)
      else if s.chunk.toNat < 2 then some (.badChunk, .demod)
      else if c.bMax < s.nbits.toNat then some (.badNbits, .demod)
      else none := by
  cases src <;> rfl

theorem filterStage_endsFrom : (filterStage c s).EndsFrom s (firstFault c .bandpass s) := by
  rcases filterStage_cases c s with ⟨bad, e⟩ | ⟨good, e⟩ <;> rw [e] <;> simp only [firstFault]
  · rw [if_pos bad]
    exact ⟨nofun, rfl⟩
  · rw [if_neg (by omega)]
    exact ⟨_, rfl, rfl⟩

theorem syncStage_endsFrom (src : Src) : (syncStage c src s).EndsFrom s (firstFault c (.findSync src) s) := by
  rcases syncStage_cases c s src with ⟨bad, e⟩ | ⟨length, ⟨bad, e⟩ | ⟨good, e⟩⟩ <;>
    rw [e, firstFault_findSync]
  · rw [if_pos bad]
    exact ⟨nofun, rfl⟩
  · rw [if_neg (by omega), if_pos bad]
    exact ⟨nofun, rfl⟩
  · rw [if_neg (by omega), if_neg (by omega)]
    exact ⟨_, rfl, rfl⟩

theorem demodStage_endsFrom (src : Src) :
    (demodStage c src s.start.toNat s.nbits.toNat s).EndsFrom s (firstFault c (.demod src) s) := by
  rcases demodStage_cases c s src s.start.toNat s.nbits.toNat with
    ⟨bad, e⟩ | ⟨mode, ⟨bad, e⟩ | ⟨length, ⟨bad, e⟩ | ⟨chunk, ⟨bad, e⟩ | ⟨count, e⟩⟩⟩⟩ <;>
    rw [e, firstFault_demod]
  · rw [if_pos bad]
    exact ⟨nofun, rfl⟩
  · rw [if_neg (by simp [mode]), if_pos bad]
    exact ⟨nofun, rfl⟩
  · rw [if_neg (by simp [mode]), if_neg (by omega), if_pos bad]
    exact ⟨nofun, rfl⟩
  · rw [if_neg (by simp [mode]), if_neg (by omega), if_neg (by omega), if_pos bad]
    exact ⟨nofun, rfl⟩
  · rw [if_neg (by simp [mode]), if_neg (by omega), if_neg (by omega), if_neg (by omega)]
    exact ⟨_, rfl, rfl⟩

theorem packStage_endsFrom : (packStage c s).EndsFrom s (firstFault c .pack s) := by
  rcases packStage_cases c s with ⟨bad, e⟩ | ⟨good, e⟩ <;> rw [e, firstFault]
  · rw [if_pos bad]
    exact ⟨nofun, rfl⟩
  · rw [if_neg (by omega)]
    exact ⟨_, rfl, rfl⟩

theorem checkStage_endsFrom : (checkStage c s).EndsFrom s (firstFault c .check s) := by
  rcases checkStage_cases c s with ⟨bad, e⟩ | ⟨good, e⟩ <;> rw [e, firstFault]
  · rw [if_pos bad]
    exact ⟨nofun, rfl⟩
  · rw [if_neg (by omega)]
    exact ⟨_, rfl, rfl⟩

theorem csgenStage_endsFrom : (csgenStage c s).EndsFrom s (firstFault c .csgen s) := by
  rcases csgenStage_cases c s with ⟨bad, e⟩ | ⟨count, ⟨bad, e⟩ | ⟨good, e⟩⟩ <;> rw [e, firstFault]
  · rw [if_pos bad]
    exact ⟨nofun, rfl⟩
  · rw [if_neg (by omega), if_pos bad]
    exact ⟨nofun, rfl⟩
  · rw [if_neg (by omega), if_neg (by omega)]
    exact ⟨_, rfl, rfl⟩

/-- Every single operation, CHECK from the state in which it has cleared VALID. -/
theorem exec_endsFrom (single : i ≠ .decode) (s : State) :
    ∃ r : Run, exec i s = r.finish ∧
      r.EndsFrom (if i = .check then withValid false s else s) (firstFault Config.hw i s) := by
  cases i with
  | bandpass => exact ⟨_, exec_bandpass s, filterStage_endsFrom⟩
  | findSync src => exact ⟨_, exec_findSync s src, syncStage_endsFrom src⟩
  | demod src => exact ⟨_, exec_demod s src, demodStage_endsFrom src⟩
  | pack => exact ⟨_, exec_pack s, packStage_endsFrom⟩
  | check => exact ⟨_, exec_check s, checkStage_endsFrom (s := clearValid s)⟩
  | csgen => exact ⟨_, exec_csgen s, csgenStage_endsFrom⟩
  | decode => exact absurd rfl single

/-- A single operation ends with the first fault of R97, all else but STATUS and STAGE as before, or completes. -/
theorem exec_single_cases (single : i ≠ .decode) (h : exec i s = .next t) :
    (∃ code st, firstFault Config.hw i s = some (code, st) ∧
      t = { s with
        stage := st
        status := { busy := false, done := true, valid := if i = .check then false else s.status.valid,
                    err := some code } }) ∨
    firstFault Config.hw i s = none ∧ t.status.err = s.status.err ∧ t.stage = .idle := by
  obtain ⟨r, hr, ends⟩ := exec_endsFrom single s
  rw [hr] at h
  cases hf : firstFault Config.hw i s with
  | none =>
    rw [hf] at ends
    obtain ⟨u, rfl, err⟩ := ends
    cases h
    refine .inr ⟨rfl, err.trans ?_, rfl⟩
    split <;> rfl
  | some fault =>
    obtain ⟨code, st⟩ := fault
    rw [hf] at ends
    obtain ⟨legal, rfl⟩ := ends
    cases h
    refine .inl ⟨code, st, rfl, ?_⟩
    rw [raiseFault, if_neg legal]
    split <;> rfl

/-! ### How DECODE faults -/

/-- A DECODE that faults has come to stage 1, 2 or 3, with the stages before it completed (R91, R97). -/
theorem exec_decode_faulted (noFault : s.status.err = none) (h : exec .decode s = .next t)
    (fault : t.status.err = some code) :
    code ≠ .illegalCmd ∧
      (t = raiseFault code (enterStage .filter (clearValid s)) ∨
      (1 ≤ s.xlen.toNat ∧ s.xlen.toNat ≤ Config.hw.nMax) ∧
        (t = raiseFault code (enterStage .sync (afterFilter Config.hw (clearValid s))) ∨
        (1 ≤ s.rlen.toNat ∧ s.rlen.toNat ≤ Config.hw.rMax ∧ s.rlen.toNat ≤ s.xlen.toNat) ∧
          t = raiseFault code (enterStage .demod (afterSync Config.hw (clearValid s))))) := by
  rcases decodeStages_cases Config.hw (clearValid s) with
    ⟨_, e⟩ | ⟨length, ⟨_, e⟩ | ⟨reference, ⟨_, e⟩ | ⟨_, ⟨_, e⟩ | ⟨_, e⟩⟩⟩⟩ <;>
    rw [exec_decode, e] at h <;> cases h
  · cases fault
    exact ⟨nofun, .inl rfl⟩
  · cases fault
    exact ⟨nofun, .inr ⟨length, .inl rfl⟩⟩
  · cases fault
    exact ⟨nofun, .inr ⟨length, .inr ⟨reference, rfl⟩⟩⟩
  · cases fault
    exact ⟨nofun, .inr ⟨length, .inr ⟨reference, rfl⟩⟩⟩
  · cases noFault.symm.trans fault

/-- Stage 2 of DECODE finds what FIND_SYNC Y after BANDPASS finds. -/
theorem afterSync_clearValid_sync :
    (afterSync c (clearValid s)).sync = (storeSync c .y (enterStage .sync (complete (afterFilter c s)))).sync :=
  congrArg (BitVec.ofNat 32) (syncOffset_congr c rfl rfl rfl rfl rfl)

/-! ### A step of a halted block -/

theorem writeCommand_of_halted (halted : Halted s) (w : Word) : writeCommand w s = .next s :=
  writeCommand_of_not_accepted fun accepted => halted accepted.2

/-- A host write to STATUS, of any value (R26, R101). -/
theorem hostAccess_writeStatus (idle : Idle s) (v : Word) : hostAccess c (.writeReg 1 v) s = clearFault s :=
  hostAccess_writeReg_named (r := .status) idle rfl v

/-- Whatever the host does to the block other than a CMD write, STATUS is kept, or ERR cleared by one of two accesses. -/
theorem hostAccess_err_cases (c : Config) (a : HostAccess) (s : State) :
    (hostAccess c a s).status = s.status ∨
      (hostAccess c a s).status.err = none ∧ ((∃ v, a = .writeReg 1 v) ∨ a = .reset) := by
  by_cases reset : a = .reset
  · subst reset
    exact .inr ⟨rfl, .inr rfl⟩
  by_cases write : ∃ v, a = .writeReg 1 v
  · obtain ⟨v, rfl⟩ := write
    cases busy : s.status.busy with
    | true => exact .inl (congrArg State.status (if_pos busy))
    | false => exact .inr ⟨by rw [hostAccess_writeStatus busy]; rfl, .inl ⟨v, rfl⟩⟩
  · exact .inl (hostAccess_status c a s reset fun v e => write ⟨v, e⟩)

/-- A halted block keeps STATUS, unless the host writes to it or asserts reset, which clear the fault (R100, R101). -/
theorem step_of_halted (halted : Halted s) (h : step s = .next t) :
    t.status = s.status ∨
      t.status.err = none ∧ ((∃ v rest, s.pending = .writeReg 1 v :: rest) ∨ ∃ rest, s.pending = .reset :: rest) := by
  rcases step_cases h with ⟨_, rfl⟩ | ⟨w, rest, _, hw⟩ | ⟨a, rest, hp, _, rfl⟩
  · exact .inl rfl
  · cases (writeCommand_of_halted (s := { s with pending := rest }) halted w).symm.trans hw
    exact .inl rfl
  · rcases hostAccess_err_cases Config.hw a { s with pending := rest } with kept | ⟨cleared, ⟨v, rfl⟩ | rfl⟩
    · exact .inl kept
    · exact .inr ⟨cleared, .inl ⟨v, rest, hp⟩⟩
    · exact .inr ⟨cleared, .inr ⟨rest, hp⟩⟩

end

/-! ### The statements -/

/-- Settles O10, from how single operations end and how DECODE ends. -/
theorem firstFailingCheckIsReported : Obligations.FirstFailingCheckIsReported := by
  intro i s t h
  by_cases single : i = .decode
  · subst single
    rcases exec_decode_cases h with ⟨code, st, first, status, stage⟩ | ⟨first, _, rfl⟩ <;> rw [first]
    · exact ⟨by rw [status], stage⟩
    · exact ⟨rfl, rfl⟩
  · rcases exec_single_cases single h with ⟨code, st, first, rfl⟩ | ⟨first, completed⟩ <;> rw [first]
    · exact ⟨rfl, rfl⟩
    · exact completed

/-- Settles O11: the frame of a single operation that faults, and for DECODE the runs of BANDPASS and FIND_SYNC Y that the
completed stages stand for. -/
theorem faultsArePrecise : Obligations.FaultsArePrecise := by
  refine ⟨fun i s t code single noFault h fault => ?_, fun s t code noFault h fault => ?_⟩
  · rcases exec_single_cases single h with ⟨code', st, _, rfl⟩ | ⟨_, err, _⟩
    · cases fault
      rfl
    · cases noFault.symm.trans (err.symm.trans fault)
  · obtain ⟨legal, rfl | ⟨length, rfl | ⟨reference, rfl⟩⟩⟩ := exec_decode_faulted noFault h fault
    · exact ⟨rfl, .inl ⟨if_neg legal, rfl⟩⟩
    · exact ⟨rfl, .inr ⟨_, exec_bandpass_of_length length, noFault, .inl ⟨if_neg legal, rfl⟩⟩⟩
    · refine ⟨rfl, .inr ⟨_, exec_bandpass_of_length length, noFault, .inr ⟨if_neg legal, _,
        exec_findSync_of_fits (src := .y) length reference, noFault, ?_⟩⟩⟩
      rw [complete_sync, ← afterSync_clearValid_sync]
      rfl

/-- Settles O12: the command is not accepted, and no other access but the two of R101 changes STATUS. -/
theorem haltedBlockIgnoresCommands : Obligations.HaltedBlockIgnoresCommands := by
  intro s t code fault h
  have halted : Halted s := by simp [fault]
  refine ⟨fun w rest hp => ?_, (step_of_halted halted h).imp_left fun kept => by rw [kept, fault]⟩
  have ignored := writeCommand_of_halted (s := { s with pending := rest }) halted w
  rw [step_writeCommand hp, ignored] at h
  exact (Host.Outcome.next.inj h).symm

/-- Settles O13, access by access; a step that leaves the halted state has changed STATUS. -/
theorem leavingTheHaltedState : Obligations.LeavingTheHaltedState := by
  refine ⟨fun s v rest hp idle => ?_, fun s rest hp => ⟨_, step_hostAccess hp nofun, rfl, rfl⟩,
    fun s t halted h left => ?_⟩
  · have cleared := hostAccess_writeStatus (c := Config.hw) (s := { s with pending := rest }) idle v
    rw [step_hostAccess hp nofun, cleared, clearFault]
  · rcases step_of_halted halted h with kept | ⟨_, access⟩
    · exact absurd (by rwa [Halted, kept]) left
    · exact access

/-- Settles O8. -/
theorem idleBlockWaits : Obligations.IdleBlockWaits := by
  intro s hp
  simp only [step, stepHost, hp]

/-- Settles O9: the operation ends in `raiseFault`, which is the update that R98 lists. -/
theorem faultEntryWrites : Obligations.FaultEntryWrites := fun code s => Run.finish_faulted code s

end Sys2Proof.Machine

/-! ## How an operation ends, and reset

R118: the fault an operation reports is one of R97's checks, and each of those names a stage that can raise it. R109: reset
leaves every field that a register reads at its reset value. -/

namespace Sys2Proof.Machine

/-- Each check of R97 reports a fault of the stage that makes it (R96). -/
theorem firstFault_stage_mem {c : Config} {i : Instr} {s : State} {code : FaultCode} {st : Stage}
    (h : firstFault c i s = some (code, st)) : st ∈ stagesOf (some code) ∧ st ≠ .idle := by
  cases i
  all_goals
    simp only [firstFault] at h
    split_ifs at h <;> cases h <;> decide

/-- The two endings of an operation (R118): it leaves ERR alone and STAGE idle, or it reports a fault of R96. -/
theorem exec_endings {i : Instr} {s t : State} (h : exec i s = .next t) :
    (t.status.err = s.status.err ∧ t.stage = .idle) ∨
      ∃ code, t.status.err = some code ∧ t.stage ∈ stagesOf (some code) ∧ t.stage ≠ .idle := by
  have reported := firstFailingCheckIsReported i s t h
  cases first : firstFault Config.hw i s with
  | none =>
    rw [first] at reported
    exact .inl reported
  | some fault =>
    obtain ⟨code, st⟩ := fault
    rw [first] at reported
    obtain ⟨err, rfl⟩ := reported
    exact .inr ⟨code, err, firstFault_stage_mem first⟩

/-- A CMD write gives a next state, accepted or not, legal or not (R60, R118). -/
theorem writeCommand_next (w : Word) (s : State) : ∃ t, writeCommand w s = .next t := by
  rcases writeCommand_cases w s with ⟨_, e⟩ | ⟨_, ⟨i, _, e⟩ | ⟨_, _, e⟩⟩ <;> rw [e]
  · exact ⟨_, rfl⟩
  · exact exec_next _ i
  · exact ⟨_, rfl⟩

theorem step_next (s : State) : ∃ t, step s = .next t := by
  cases hp : s.pending with
  | nil => exact ⟨s, idleBlockWaits s hp⟩
  | cons a rest =>
    by_cases command : ∃ w, a = .writeReg 0 w
    · obtain ⟨w, rfl⟩ := command
      rw [step_writeCommand hp]
      exact writeCommand_next w _
    · exact ⟨_, step_hostAccess hp fun w e => command ⟨w, e⟩⟩

/-- What reset keeps or advances of the model's own fields no register reads (R109). -/
theorem readReg_hostAccess_reset (c : Config) (s : State) (r : Reg) :
    readReg (hostAccess c .reset s) r = readReg State.reset r := by
  cases r <;> rfl

/-! ### The statements -/

/-- Settles O7, from the first check that fails (R97) and the three things a step can do. -/
theorem everyOperationEnds : Obligations.EveryOperationEnds := by
  refine ⟨fun i s => ?_, step_next⟩
  obtain ⟨t, h⟩ := exec_next s i
  obtain ⟨idle, done, _⟩ := exec_control h
  exact ⟨t, h, idle, done, exec_endings h⟩

/-- Settles O42, register by register; STATUS after reset is idle and not halted. -/
theorem resetInput : Obligations.ResetInput := by
  intro s rest hp
  exact ⟨_, step_hostAccess hp nofun, rfl, readReg_hostAccess_reset _ _, rfl, fun halted => halted rfl⟩

end Sys2Proof.Machine
